-- ==== Sys2Proof/Word.lean ====
section
/-! DEFINITION. The machine's widths: bytes, 16-bit words and the operand fields of an instruction
(10_state.md R10, R12, R13; 30_encoding.md R61). Every value is unsigned (00_scope.md R8). -/

namespace Sys2Proof

/-- An 8-bit value: a general register, a timer, a byte of `MEM` (R10, R17, R18, R21). -/
abbrev Byte := BitVec 8

/-- A 16-bit value: `I`, `PC`, a call-stack entry, an instruction word (R12, R13, R19, R60). -/
abbrev Word := BitVec 16

/-- The 4-bit index of a general register, and the X and Y fields that hold one (R10, R61). -/
abbrev Reg := BitVec 4

/-- The 4-bit field N, and the 4-bit index of a key (R61, R24). -/
abbrev Nibble := BitVec 4

/-- The 12-bit field NNN (R61). -/
abbrev Addr12 := BitVec 12

end Sys2Proof
end

