-- ==== Sys2Proof/Syntax.lean ====
section
/-! DEFINITION. The instructions: one constructor for each row of spec/opcode_table.json
(30_encoding.md R65). A field holds the bits of the word that the row gives it (R61), the ignored Y of
the two shifts among them (R66). -/

namespace Sys2Proof

/-- The instruction set, in the order of the opcode map (R65). -/
inductive Instr where
  /-- Row 1, `00E0` (R100). -/
  | cls
  /-- Row 2, `00EE` (R101). -/
  | ret
  /-- Row 3, `1NNN` (R102). -/
  | jp (nnn : Addr12)
  /-- Row 4, `2NNN` (R103). -/
  | call (nnn : Addr12)
  /-- Row 5, `3XNN` (R110). -/
  | seImm (x : Reg) (nn : Byte)
  /-- Row 6, `4XNN` (R111). -/
  | sneImm (x : Reg) (nn : Byte)
  /-- Row 7, `5XY0` (R112). -/
  | seReg (x y : Reg)
  /-- Row 8, `6XNN` (R120). -/
  | ldImm (x : Reg) (nn : Byte)
  /-- Row 9, `7XNN` (R121). -/
  | addImm (x : Reg) (nn : Byte)
  /-- Row 10, `8XY0` (R122). -/
  | ldReg (x y : Reg)
  /-- Row 11, `8XY1` (R123). -/
  | orReg (x y : Reg)
  /-- Row 12, `8XY2` (R124). -/
  | andReg (x y : Reg)
  /-- Row 13, `8XY3` (R125). -/
  | xorReg (x y : Reg)
  /-- Row 14, `8XY4` (R126). -/
  | addReg (x y : Reg)
  /-- Row 15, `8XY5` (R127). -/
  | subReg (x y : Reg)
  /-- Row 16, `8XY6` (R128): `y` is matched and not used. -/
  | shr (x y : Reg)
  /-- Row 17, `8XY7` (R129). -/
  | subnReg (x y : Reg)
  /-- Row 18, `8XYE` (R130): `y` is matched and not used. -/
  | shl (x y : Reg)
  /-- Row 19, `9XY0` (R113). -/
  | sneReg (x y : Reg)
  /-- Row 20, `ANNN` (R140). -/
  | ldI (nnn : Addr12)
  /-- Row 21, `BNNN` (R104). -/
  | jpV0 (nnn : Addr12)
  /-- Row 22, `CXNN` (R141). -/
  | rnd (x : Reg) (nn : Byte)
  /-- Row 23, `DXYN` (R145). -/
  | drw (x y : Reg) (n : Nibble)
  /-- Row 24, `EX9E` (R114). -/
  | skp (x : Reg)
  /-- Row 25, `EXA1` (R115). -/
  | sknp (x : Reg)
  /-- Row 26, `FX07` (R150). -/
  | ldVxDt (x : Reg)
  /-- Row 27, `FX0A` (R158). -/
  | ldVxK (x : Reg)
  /-- Row 28, `FX15` (R151). -/
  | ldDtVx (x : Reg)
  /-- Row 29, `FX18` (R152). -/
  | ldStVx (x : Reg)
  /-- Row 30, `FX1E` (R153). -/
  | addI (x : Reg)
  /-- Row 31, `FX29` (R154). -/
  | ldF (x : Reg)
  /-- Row 32, `FX33` (R155). -/
  | ldB (x : Reg)
  /-- Row 33, `FX55` (R156). -/
  | storeRegs (x : Reg)
  /-- Row 34, `FX65` (R157). -/
  | loadRegs (x : Reg)
  /-- Row 35, `0NNN` (R166): the reserved slot; a word of class 0 that is neither `00E0` nor `00EE`. -/
  | sys (nnn : Addr12)
  deriving DecidableEq, Repr

end Sys2Proof
end

