-- ==== Sys2Proof/Decode.lean ====
section
/-! DEFINITION. The decoder of 30_encoding.md R64, total on all 65536 words and on any bytes, and after
it the encoder, written from the formats of R62 and the opcode map of R65. -/

namespace Sys2Proof

/-! ## The fields of a word (R61) -/

/-- C, the class: `w[15:12]`. -/
def fieldC (w : Word) : Nibble := w.extractLsb' 12 4

/-- X: `w[11:8]`. -/
def fieldX (w : Word) : Reg := w.extractLsb' 8 4

/-- Y: `w[7:4]`. -/
def fieldY (w : Word) : Reg := w.extractLsb' 4 4

/-- N: `w[3:0]`. -/
def fieldN (w : Word) : Nibble := w.extractLsb' 0 4

/-- NN: `w[7:0]`. -/
def fieldNN (w : Word) : Byte := w.extractLsb' 0 8

/-- NNN: `w[11:0]`. -/
def fieldNNN (w : Word) : Addr12 := w.extractLsb' 0 12

/-! ## Decoding (R64) -/

/-- Why bytes are no instruction. -/
inductive DecodeReject where
  /-- The word matches no row of the opcode map: `Undefined` (R64, R67). The step reports it and goes
  on (R165), so this reject stops nothing: safe. -/
  | undefinedWord (w : Word)
  /-- Fewer than the two bytes that an instruction takes (R60). Only `decodeBytes` answers it; the
  step fetches two bytes or faults. -/
  | truncated (available : Nat)
  deriving DecidableEq, Repr

/-- Class 0: two fixed words, and the reserved row 35 for every other one (R68; R166 lets the decoder
return an identity of its own for it, whose behaviour is that of `Undefined`). Log entry 7. -/
def decodeClass0 (w : Word) : Instr :=
  if w = 0x00E0#16 then .cls else if w = 0x00EE#16 then .ret else .sys (fieldNNN w)

/-- Class 8: refined by the low nibble (R64). -/
def decodeClass8 (w : Word) : Except DecodeReject Instr :=
  match fieldN w with
  | 0x0#4 => .ok (.ldReg (fieldX w) (fieldY w))
  | 0x1#4 => .ok (.orReg (fieldX w) (fieldY w))
  | 0x2#4 => .ok (.andReg (fieldX w) (fieldY w))
  | 0x3#4 => .ok (.xorReg (fieldX w) (fieldY w))
  | 0x4#4 => .ok (.addReg (fieldX w) (fieldY w))
  | 0x5#4 => .ok (.subReg (fieldX w) (fieldY w))
  | 0x6#4 => .ok (.shr (fieldX w) (fieldY w))
  | 0x7#4 => .ok (.subnReg (fieldX w) (fieldY w))
  | 0xE#4 => .ok (.shl (fieldX w) (fieldY w))
  | _ => .error (.undefinedWord w)

/-- Class E: refined by the low byte (R64). -/
def decodeClassE (w : Word) : Except DecodeReject Instr :=
  match fieldNN w with
  | 0x9E#8 => .ok (.skp (fieldX w))
  | 0xA1#8 => .ok (.sknp (fieldX w))
  | _ => .error (.undefinedWord w)

/-- Class F: refined by the low byte (R64). -/
def decodeClassF (w : Word) : Except DecodeReject Instr :=
  match fieldNN w with
  | 0x07#8 => .ok (.ldVxDt (fieldX w))
  | 0x0A#8 => .ok (.ldVxK (fieldX w))
  | 0x15#8 => .ok (.ldDtVx (fieldX w))
  | 0x18#8 => .ok (.ldStVx (fieldX w))
  | 0x1E#8 => .ok (.addI (fieldX w))
  | 0x29#8 => .ok (.ldF (fieldX w))
  | 0x33#8 => .ok (.ldB (fieldX w))
  | 0x55#8 => .ok (.storeRegs (fieldX w))
  | 0x65#8 => .ok (.loadRegs (fieldX w))
  | _ => .error (.undefinedWord w)

/-- The decoder (R64): it reads nothing but the word. Classes 5 and 9 are defined only with a zero low
nibble (R69, decision D6; log entry 8). -/
def decode (w : Word) : Except DecodeReject Instr :=
  match fieldC w with
  | 0x0#4 => .ok (decodeClass0 w)
  | 0x1#4 => .ok (.jp (fieldNNN w))
  | 0x2#4 => .ok (.call (fieldNNN w))
  | 0x3#4 => .ok (.seImm (fieldX w) (fieldNN w))
  | 0x4#4 => .ok (.sneImm (fieldX w) (fieldNN w))
  | 0x5#4 => if fieldN w = 0#4 then .ok (.seReg (fieldX w) (fieldY w)) else .error (.undefinedWord w)
  | 0x6#4 => .ok (.ldImm (fieldX w) (fieldNN w))
  | 0x7#4 => .ok (.addImm (fieldX w) (fieldNN w))
  | 0x8#4 => decodeClass8 w
  | 0x9#4 => if fieldN w = 0#4 then .ok (.sneReg (fieldX w) (fieldY w)) else .error (.undefinedWord w)
  | 0xA#4 => .ok (.ldI (fieldNNN w))
  | 0xB#4 => .ok (.jpV0 (fieldNNN w))
  | 0xC#4 => .ok (.rnd (fieldX w) (fieldNN w))
  | 0xD#4 => .ok (.drw (fieldX w) (fieldY w) (fieldN w))
  | 0xE#4 => decodeClassE w
  | 0xF#4 => decodeClassF w
  | _ => .error (.undefinedWord w)

/-- The word of two bytes in the order of their addresses: high byte first (20_memory.md R40). -/
def wordOfBytes (first second : Byte) : Word := (first ++ second : BitVec (8 + 8)).cast rfl

/-- The byte of a word that lies at the lower address (R40). -/
def firstByte (w : Word) : Byte := w.extractLsb' 8 8

/-- The byte of a word that lies at the higher address (R40). -/
def secondByte (w : Word) : Byte := w.extractLsb' 0 8

/-- One instruction read from the front of any bytes, with the bytes after it (R60, R71: two bytes,
always). -/
def decodeBytes : List Byte → Except DecodeReject (Instr × List Byte)
  | first :: second :: rest =>
    match decode (wordOfBytes first second) with
    | .ok i => .ok (i, rest)
    | .error e => .error e
  | bytes => .error (.truncated bytes.length)

/-- The word whose bits opcode_table.json numbers from bit 0, the bits from `nbits` up being zero. -/
def tableWord (nbits w : Nat) : Word := BitVec.ofNat 16 (w % 2 ^ nbits)

/-- What the decoder reads from the bytes of a table word, laid out as the machine stores them. -/
def decodeTableWord (nbits w : Nat) : Option Instr :=
  match decodeBytes [firstByte (tableWord nbits w), secondByte (tableWord nbits w)] with
  | .ok (i, _) => some i
  | .error _ => none

/-! ## Encoding (R62, R65) -/

/-- Format FA: class and address. -/
def formatFA (c : Nibble) (nnn : Addr12) : Word := (c ++ nnn : BitVec (4 + 12)).cast rfl

/-- Formats FXK and FX: class, register, and a constant or a sub-opcode byte. -/
def formatFXK (c : Nibble) (x : Reg) (nn : Byte) : Word := (c ++ x ++ nn : BitVec (4 + 4 + 8)).cast rfl

/-- Format FXY: class, two registers, and a sub-opcode nibble or N. -/
def formatFXY (c : Nibble) (x y : Reg) (n : Nibble) : Word := (c ++ x ++ y ++ n : BitVec (4 + 4 + 4 + 4)).cast rfl

/-- The word of a well-formed instruction (R65). -/
def encode : Instr → Word
  | .cls => 0x00E0#16
  | .ret => 0x00EE#16
  | .jp nnn => formatFA 0x1#4 nnn
  | .call nnn => formatFA 0x2#4 nnn
  | .seImm x nn => formatFXK 0x3#4 x nn
  | .sneImm x nn => formatFXK 0x4#4 x nn
  | .seReg x y => formatFXY 0x5#4 x y 0x0#4
  | .ldImm x nn => formatFXK 0x6#4 x nn
  | .addImm x nn => formatFXK 0x7#4 x nn
  | .ldReg x y => formatFXY 0x8#4 x y 0x0#4
  | .orReg x y => formatFXY 0x8#4 x y 0x1#4
  | .andReg x y => formatFXY 0x8#4 x y 0x2#4
  | .xorReg x y => formatFXY 0x8#4 x y 0x3#4
  | .addReg x y => formatFXY 0x8#4 x y 0x4#4
  | .subReg x y => formatFXY 0x8#4 x y 0x5#4
  | .shr x y => formatFXY 0x8#4 x y 0x6#4
  | .subnReg x y => formatFXY 0x8#4 x y 0x7#4
  | .shl x y => formatFXY 0x8#4 x y 0xE#4
  | .sneReg x y => formatFXY 0x9#4 x y 0x0#4
  | .ldI nnn => formatFA 0xA#4 nnn
  | .jpV0 nnn => formatFA 0xB#4 nnn
  | .rnd x nn => formatFXK 0xC#4 x nn
  | .drw x y n => formatFXY 0xD#4 x y n
  | .skp x => formatFXK 0xE#4 x 0x9E#8
  | .sknp x => formatFXK 0xE#4 x 0xA1#8
  | .ldVxDt x => formatFXK 0xF#4 x 0x07#8
  | .ldVxK x => formatFXK 0xF#4 x 0x0A#8
  | .ldDtVx x => formatFXK 0xF#4 x 0x15#8
  | .ldStVx x => formatFXK 0xF#4 x 0x18#8
  | .addI x => formatFXK 0xF#4 x 0x1E#8
  | .ldF x => formatFXK 0xF#4 x 0x29#8
  | .ldB x => formatFXK 0xF#4 x 0x33#8
  | .storeRegs x => formatFXK 0xF#4 x 0x55#8
  | .loadRegs x => formatFXK 0xF#4 x 0x65#8
  | .sys nnn => formatFA 0x0#4 nnn

/-- The two bytes of an instruction, in the order of their addresses (R60, R40). -/
def encodeBytes (i : Instr) : List Byte := [firstByte (encode i), secondByte (encode i)]

/-! ## The opcode map (R65), as match and mask -/

/-- A row of the opcode map: a word `w` is its instruction when `w AND mask = pattern` (R65). -/
structure OpcodeRow where
  pattern : Word
  mask    : Word
  deriving DecidableEq, Repr

/-- Whether a word matches a row (R65). -/
def OpcodeRow.covers (row : OpcodeRow) (w : Word) : Bool := (w &&& row.mask) == row.pattern

/-- The row of an instruction, copied from the table: it is read by no other definition here, so that
the decoder and the encoder can be held against it. -/
def opcodeRow : Instr → OpcodeRow
  | .cls => ⟨0x00E0#16, 0xFFFF#16⟩
  | .ret => ⟨0x00EE#16, 0xFFFF#16⟩
  | .jp _ => ⟨0x1000#16, 0xF000#16⟩
  | .call _ => ⟨0x2000#16, 0xF000#16⟩
  | .seImm _ _ => ⟨0x3000#16, 0xF000#16⟩
  | .sneImm _ _ => ⟨0x4000#16, 0xF000#16⟩
  | .seReg _ _ => ⟨0x5000#16, 0xF00F#16⟩
  | .ldImm _ _ => ⟨0x6000#16, 0xF000#16⟩
  | .addImm _ _ => ⟨0x7000#16, 0xF000#16⟩
  | .ldReg _ _ => ⟨0x8000#16, 0xF00F#16⟩
  | .orReg _ _ => ⟨0x8001#16, 0xF00F#16⟩
  | .andReg _ _ => ⟨0x8002#16, 0xF00F#16⟩
  | .xorReg _ _ => ⟨0x8003#16, 0xF00F#16⟩
  | .addReg _ _ => ⟨0x8004#16, 0xF00F#16⟩
  | .subReg _ _ => ⟨0x8005#16, 0xF00F#16⟩
  | .shr _ _ => ⟨0x8006#16, 0xF00F#16⟩
  | .subnReg _ _ => ⟨0x8007#16, 0xF00F#16⟩
  | .shl _ _ => ⟨0x800E#16, 0xF00F#16⟩
  | .sneReg _ _ => ⟨0x9000#16, 0xF00F#16⟩
  | .ldI _ => ⟨0xA000#16, 0xF000#16⟩
  | .jpV0 _ => ⟨0xB000#16, 0xF000#16⟩
  | .rnd _ _ => ⟨0xC000#16, 0xF000#16⟩
  | .drw _ _ _ => ⟨0xD000#16, 0xF000#16⟩
  | .skp _ => ⟨0xE09E#16, 0xF0FF#16⟩
  | .sknp _ => ⟨0xE0A1#16, 0xF0FF#16⟩
  | .ldVxDt _ => ⟨0xF007#16, 0xF0FF#16⟩
  | .ldVxK _ => ⟨0xF00A#16, 0xF0FF#16⟩
  | .ldDtVx _ => ⟨0xF015#16, 0xF0FF#16⟩
  | .ldStVx _ => ⟨0xF018#16, 0xF0FF#16⟩
  | .addI _ => ⟨0xF01E#16, 0xF0FF#16⟩
  | .ldF _ => ⟨0xF029#16, 0xF0FF#16⟩
  | .ldB _ => ⟨0xF033#16, 0xF0FF#16⟩
  | .storeRegs _ => ⟨0xF055#16, 0xF0FF#16⟩
  | .loadRegs _ => ⟨0xF065#16, 0xF0FF#16⟩
  | .sys _ => ⟨0x0000#16, 0xF000#16⟩

/-- Rows 1 to 34, the instructions the source defines (R65). -/
def definedRows : List OpcodeRow :=
  [.cls, .ret, .jp 0, .call 0, .seImm 0 0, .sneImm 0 0, .seReg 0 0, .ldImm 0 0, .addImm 0 0,
   .ldReg 0 0, .orReg 0 0, .andReg 0 0, .xorReg 0 0, .addReg 0 0, .subReg 0 0, .shr 0 0,
   .subnReg 0 0, .shl 0 0, .sneReg 0 0, .ldI 0, .jpV0 0, .rnd 0 0, .drw 0 0 0, .skp 0, .sknp 0,
   .ldVxDt 0, .ldVxK 0, .ldDtVx 0, .ldStVx 0, .addI 0, .ldF 0, .ldB 0, .storeRegs 0,
   .loadRegs 0].map opcodeRow

end Sys2Proof
end

