-- ==== Sys2Proof/Config.lean ====
section
/-! DEFINITION. What is fixed for this machine: its identity (00_scope.md R1), the parameters of 00_scope.md R5, and the two open
parameters of R6 that the spec leaves without a value, as constants with no body. -/

namespace Sys2Proof.Config

/-- The identity that a model of this machine carries (R1): the instruction set, the block, and the
document that describes it. There is no vendor, part number or ISA string beside it. -/
def identity : String := "CHIP-8 / rust_chip8 CORE / DOC0 v7"

/-- `MEM_SIZE`: addresses 0x000 to 0xFFF (R5). -/
abbrev memSize : Nat := 4096

/-- `ROM_BASE`: where the loader puts the image (R5, R55). -/
abbrev romBase : Nat := 0x200

/-- `ROM_MAX` = 4096 - 0x200 = 0xE00 (R5; 90_conflicts.md C1 corrects the 0xDFF of the source). -/
abbrev romMax : Nat := 3584

/-- `RESET_PC` (R5, R30). -/
abbrev resetPc : Word := 0x200#16

/-- `FONT_LEN`: 16 glyphs of 5 bytes (R5). -/
abbrev fontLen : Nat := 80

/-- `GLYPH_LEN` (R5, R154). -/
abbrev glyphLen : Nat := 5

/-- `FONT_BASE` = 0x000, derived by the spec from `FX29` (R6, R46; decision D13). -/
abbrev fontBase : Nat := 0

/-- `STACK_DEPTH` (R5, R19). -/
abbrev stackDepth : Nat := 16

/-- `FB_W` (R5, R22). -/
abbrev fbWidth : Nat := 64

/-- `FB_H` (R5, R22). -/
abbrev fbHeight : Nat := 32

/-- `NKEY` (R5, R24). -/
abbrev keyCount : Nat := 16

/-- `FONTSET`: the 80 font bytes, an OPEN parameter (R6; 91_not_in_source.md N3). It has no body, so
what is proved of the model holds for every fontset. Log entry 4. -/
opaque fontset : Vector Byte 80

/-- `RND`: the byte that the `n`-th draw supplies (R6, R91, R141): a free value under no law, with no
body. Log entry 3. -/
opaque randomByte : Nat → Byte

end Sys2Proof.Config
end

