-- ==== Sys2Proof/Machine/State.lean ====
section
/-! DEFINITION. All the state the spec gives the machine (10_state.md), as plain data, and the state
right after reset (R30). INVENTORY.md lists every field with its rule. -/

namespace Sys2Proof.Machine

/-- `MEM` (R21): the cells that differ from what an unlisted address reads as, by rising address.
Memory.lean gives the canonical form. -/
abbrev Memory := List Host.Cell

/-- `FB` (R22): 32 rows from the top, each of 64 pixels; the pixel of column x is bit x of its row. -/
abbrev Framebuffer := Vector (BitVec 64) 32

/-- A fatal fault of the engine and the value it records (R172 to R174; decision D15). -/
inductive EngineFault where
  /-- A byte access outside 0..4095 (R172); `addr` is the lowest offending address, unbounded (R43). -/
  | memoryFault (addr : Nat)
  /-- `2NNN` with 16 addresses held (R173); `pc` is the address of the `2NNN`. -/
  | stackOverflow (pc : Word)
  /-- `00EE` with no address held (R174); `pc` is the address of the `00EE`. -/
  | stackUnderflow (pc : Word)
  deriving DecidableEq, Repr

/-- `RUN` (R25). -/
inductive RunState where
  | running
  | halted (fault : EngineFault)
  deriving DecidableEq, Repr

/-- The status output of a cycle (R85). -/
inductive Status where
  /-- A defined instruction ran to completion. -/
  | ok
  /-- `FX0A` found no key down. -/
  | awaitingKey
  /-- The fetched word is `Undefined`. -/
  | decodeError (w : Word)
  /-- The cycle raised a fatal fault, or the engine was halted by it before. -/
  | fault (f : EngineFault)
  deriving DecidableEq, Repr

/-- The machine. -/
structure State where
  /-- `V0`..`VF`; `VF` is also the flag (R10, R11). -/
  v      : Vector Byte 16
  /-- `I` (R12). -/
  i      : Word
  /-- `PC` (R13). -/
  pc     : Word
  /-- `DT` (R17). -/
  dt     : Byte
  /-- `ST` (R18). -/
  st     : Byte
  /-- `STACK[0]`..`STACK[15]` (R19). -/
  stack  : Vector Word 16
  /-- `SP`: how many return addresses are held, 0..16 (R19). -/
  sp     : Fin 17
  /-- `MEM` (R21). -/
  mem    : Memory
  /-- `FB` (R22). -/
  fb     : Framebuffer
  /-- `REDRAW` (R23). -/
  redraw : Bool
  /-- `KEY[0]`..`KEY[15]`, true when pressed: an input that only the host writes (R24). -/
  keys   : Vector Bool 16
  /-- `RUN` (R25). -/
  run    : RunState
  /-- The status output of the last cycle; none before the first (R26, R30). No rule reads it. Log entry 2. -/
  status : Option Status
  /-- The beep output of the last cycle; none before the first (R26, R30). No rule reads it. Log entry 2. -/
  beep   : Option Bool
  /-- The MODEL's own field: how many random bytes have been drawn (R91). Log entry 3. -/
  draws  : Nat
  deriving DecidableEq, Repr

/-- The reasons for which a step stops with a fault: none. What each fatal fault of the engine leaves
is described by the spec (R179, R86), so it is a next state with `RUN` halted. Log entry 1; safe or
unsafe does not arise, since no step answers a fault. -/
inductive Fault where
  deriving DecidableEq, Repr

/-- The reasons for which a step is refused. -/
inductive Refusal where
  /-- Raised by an arm of `exec` whose instruction has no meaning yet; no arm does. Safe. -/
  | notModelled (mnemonic : String)
  deriving DecidableEq, Repr

/-- The state after `initialize`, which is also power-on (R30, R210; R212, decision D2). `MEM` lists
nothing: it reads as the fontset and zeros. `KEY` has no reset value in the spec (R30): all released,
DESIGN CHOICE, log entry 5. `draws` is the model's own: 0, DESIGN CHOICE, log entry 3. -/
def State.reset : State where
  v := Vector.replicate 16 0#8
  i := 0#16
  pc := Config.resetPc
  dt := 0#8
  st := 0#8
  stack := Vector.replicate 16 0#16
  sp := 0
  mem := []
  fb := Vector.replicate 32 0#64
  redraw := true
  keys := Vector.replicate 16 false
  run := .running
  status := none
  beep := none
  draws := 0

end Sys2Proof.Machine
end

