-- ==== Sys2Proof/Machine/Memory.lean ====
section
/-! DEFINITION. The 4096 bytes of `MEM` (20_memory.md): what an unlisted address reads as, the canonical
form, one byte read and written, and the bounds-checked accesses that every fetch and data access goes
through (R42, R43). -/

namespace Sys2Proof.Machine

/-- What an unlisted address reads as: the reset contents, the fontset at `FONT_BASE` and zero
everywhere else (R30, R46, R210). Log entry 4. -/
def Memory.background (a : Nat) : Byte :=
  if h : Config.fontBase ≤ a ∧ a - Config.fontBase < Config.fontLen then
    Config.fontset[a - Config.fontBase]'h.2
  else 0#8

/-- `MEM[a]`, without a bounds check (R8). -/
def Memory.read : Memory → Nat → Byte
  | [], a => Memory.background a
  | (a', b) :: rest, a => if a' = a then b else Memory.read rest a

/-- Lists a cell at the front, unless it holds what its address reads as unlisted. -/
def Memory.consCell (a : Nat) (b : Byte) (m : Memory) : Memory :=
  if b = Memory.background a then m else (a, b) :: m

/-- `MEM[a] <- b`, without a bounds check, keeping the canonical form. -/
def Memory.write : Memory → Nat → Byte → Memory
  | [], a, b => Memory.consCell a b []
  | (a', b') :: rest, a, b =>
    if a < a' then Memory.consCell a b ((a', b') :: rest)
    else if a = a' then Memory.consCell a b rest
    else (a', b') :: Memory.write rest a b

/-- The canonical form from address `lo` up: addresses strictly rising, inside the memory, and no
entry equal to what its address reads as unlisted. -/
def Memory.wfFrom : Nat → Memory → Bool
  | _, [] => true
  | lo, (a, b) :: rest =>
    decide (lo ≤ a) && decide (a < Config.memSize) && decide (b ≠ Memory.background a)
      && Memory.wfFrom (a + 1) rest

/-- The canonical form of a memory, so that equal memories are equal lists. Log entry 9. -/
def Memory.wf (m : Memory) : Bool := Memory.wfFrom 0 m

/-- The check that precedes every byte access (R42): the address is compared as it was computed, never
reduced first (R43, decision D8). -/
def checkAddress (a : Nat) : Except EngineFault Unit :=
  if a < Config.memSize then .ok () else .error (.memoryFault a)

/-- The checks of `n` bytes from `base`, in ascending order, before anything is read or written: the
first address outside the memory is the one recorded (R172, R180). -/
def checkRange : Nat → Nat → Except EngineFault Unit
  | _, 0 => .ok ()
  | base, n + 1 =>
    match checkAddress base with
    | .ok _ => checkRange (base + 1) n
    | .error f => .error f

/-- The `n` bytes from `base`, in ascending order (R41), unchecked. -/
def Memory.readList (m : Memory) : Nat → Nat → List Byte
  | _, 0 => []
  | base, n + 1 => m.read base :: Memory.readList m (base + 1) n

/-- The given bytes written from `base` at ascending addresses (R41), unchecked. -/
def Memory.writeList (m : Memory) : Nat → List Byte → Memory
  | _, [] => m
  | base, b :: bs => Memory.writeList (m.write base b) (base + 1) bs

/-- `MemRead(base + k, 1)` for k = 0..n-1: every check first, then the bytes (R8, R42). -/
def Memory.load (m : Memory) (base n : Nat) : Except EngineFault (List Byte) :=
  match checkRange base n with
  | .ok _ => .ok (m.readList base n)
  | .error f => .error f

/-- `MemWrite(base + k, 1, bs[k])` for every byte: every check first, then the writes, so a transfer
that faults writes nothing (R8, R42, R180). -/
def Memory.store (m : Memory) (base : Nat) (bs : List Byte) : Except EngineFault Memory :=
  match checkRange base bs.length with
  | .ok _ => .ok (m.writeList base bs)
  | .error f => .error f

end Sys2Proof.Machine
end

