-- ==== Sys2Proof/Machine/Ops.lean ====
section
/-! DEFINITION. The named operations over the state: one accessor for each register, the call stack of
10_state.md R20, a program-counter update (R14), the draw of a random byte (R141), and the one way in
which an instruction raises a fatal fault (60_exceptions.md R179). -/

namespace Sys2Proof.Machine

/-! ## General registers (R10) -/

/-- `V[r]`. No register is hard-wired (R10). -/
def State.readV (s : State) (r : Reg) : Byte := s.v[r.toNat]'r.isLt

/-- `V[r] <- b`. -/
def State.writeV (s : State) (r : Reg) (b : Byte) : State := { s with v := s.v.set r.toNat b r.isLt }

/-- `V[k], V[k+1], ... <- bs`, with `k` from 0, as `FX65` loads them (R157). Bytes past VF, of which
there are none, would go nowhere. -/
def State.writeVList (s : State) : Nat → List Byte → State
  | _, [] => s
  | k, b :: bs => State.writeVList (if k < 16 then s.writeV (BitVec.ofNat 4 k) b else s) (k + 1) bs

/-- The index of VF, the flag register (R11). -/
def flagReg : Reg := 0xF#4

/-- The byte that a flag write stores: 0x00 or 0x01, never another value (R11). -/
def flagByte (flag : Bool) : Byte := if flag then 0x01#8 else 0x00#8

/-- `V[15] <- flag` (R11). -/
def State.writeFlag (s : State) (flag : Bool) : State := s.writeV flagReg (flagByte flag)

/-- A result and the flag: the result first and the flag last, so the flag wins when X = 0xF (R131,
decision D9; log entry 10). -/
def State.writeResultAndFlag (s : State) (x : Reg) (result : Byte) (flag : Bool) : State :=
  (s.writeV x result).writeFlag flag

/-! ## The named registers -/

/-- `I <- w` (R12). -/
def State.setI (s : State) (w : Word) : State := { s with i := w }

/-- `PC <- w` (R13). -/
def State.setPc (s : State) (w : Word) : State := { s with pc := w }

/-- `PC <- pc0 + 2`: past an instruction of the one length there is (R14, R60). Log entry 11. -/
def State.advance (s : State) : State := s.setPc (s.pc + 2#16)

/-- `DT <- b` (R17). -/
def State.setDt (s : State) (b : Byte) : State := { s with dt := b }

/-- `ST <- b` (R18). -/
def State.setSt (s : State) (b : Byte) : State := { s with st := b }

/-- `MEM <- m`. -/
def State.setMem (s : State) (m : Memory) : State := { s with mem := m }

/-- `FB <- fb` and `REDRAW <- 1`: every engine write of the framebuffer sets the flag (R22, R23). -/
def State.present (s : State) (fb : Framebuffer) : State := { s with fb := fb, redraw := true }

/-- `status <- x` (R8, R85). -/
def State.setStatus (s : State) (x : Status) : State := { s with status := some x }

/-! ## The call stack (R19, R20) -/

/-- `Push(a)`: the check precedes the write (R20). -/
def State.push (s : State) (a : Word) : Except EngineFault State :=
  if h : s.sp.val < 16 then
    .ok { s with stack := s.stack.set s.sp.val a h, sp := ⟨s.sp.val + 1, Nat.succ_lt_succ h⟩ }
  else .error (.stackOverflow s.pc)

/-- `Pop()`: the popped address, and the state with SP one lower; the popped entry keeps its bits (R20,
decision D19). -/
def State.pop (s : State) : Except EngineFault (Word × State) :=
  if h : s.sp.val = 0 then .error (.stackUnderflow s.pc)
  else .ok (s.stack[s.sp.val - 1]'(by omega),
            { s with sp := ⟨s.sp.val - 1, by omega⟩ })

/-! ## Random bytes (R91, R141) -/

/-- `Draw8()`: the next free byte, and the state in which it has been drawn. Log entry 3. -/
def State.draw8 (s : State) : Byte × State :=
  (Config.randomByte s.draws, { s with draws := s.draws + 1 })

/-! ## Taking a fatal fault (R179). There is no return from one but the host's `initialize` (R182). -/

/-- `raise F(info)` over the state at the start of the cycle: everything stays, `RUN` halts with the
fault, the status reports it, and there is no beep (R179, decision D3; log entry 1). -/
def State.raise (s : State) (f : EngineFault) : State :=
  { s with run := .halted f, status := some (.fault f), beep := some false }

/-- The outcome of an execute stage that ran from `s`: its result, or `s` with the fault raised
over it, so that a faulting instruction has no partial effect (R80, R180). -/
def State.settle (s : State) (r : Except EngineFault State) : Host.Outcome State Fault Refusal :=
  match r with
  | .ok t => .next t
  | .error f => .next (s.raise f)

end Sys2Proof.Machine
end

