-- ==== Sys2Proof/Machine/Operands.lean ====
section
/-! DEFINITION. Every operand form: zero-extended immediates (30_encoding.md R63), the key index in a
register (42_skip.md R117), the glyph address, the decimal digits and the register run of
46_fx_timer_index_memory_key.md, and the results of the arithmetic over them (43_register_alu.md R132),
computed over the unbounded numbers and narrowed at the end (00_scope.md R8). -/

namespace Sys2Proof.Machine

/-- `zext_16(NNN)` (R63). -/
def addressOperand (nnn : Addr12) : Word := nnn.setWidth 16

/-- `u16(zext_16(NNN) + zext_16(V[0]))`, not reduced to 12 bits (R104). -/
def indexedTarget (nnn : Addr12) (v0 : Byte) : Word := BitVec.ofNat 16 (nnn.toNat + v0.toNat)

/-- `V[X][3:0]`: the key that VX names (R117, decision D10; log entry 12). -/
def keyIndex (vx : Byte) : Nibble := vx.extractLsb' 0 4

/-- `KEY[k]`, true when pressed (R24). -/
def State.keyDown (s : State) (k : Nibble) : Bool := s.keys[k.toNat]'k.isLt

/-- The least k with `KEY[k]` pressed (R158, decision D11; log entry 13). -/
def State.lowestKey (s : State) : Option (Fin 16) := (List.finRange 16).find? fun k => s.keys[k.val]

/-- `u8(a + b)` (R132). -/
def add8 (a b : Byte) : Byte := BitVec.ofNat 8 (a.toNat + b.toNat)

/-- `u8(a - b)` (R132). -/
def sub8 (a b : Byte) : Byte := BitVec.ofInt 8 ((a.toNat : Int) - (b.toNat : Int))

/-- `v[7:1]` (R128). -/
def shiftRight8 (a : Byte) : Byte := BitVec.ofNat 8 (a.toNat / 2)

/-- `u8(v * 2)` (R130). -/
def shiftLeft8 (a : Byte) : Byte := BitVec.ofNat 8 (a.toNat * 2)

/-- `u16(I + VX)` (R153, decision D8; log entry 14). -/
def indexSum (i : Word) (vx : Byte) : Word := BitVec.ofNat 16 (i.toNat + vx.toNat)

/-- `zext_16(vx) * 5`, with no mask on vx (R154). -/
def glyphAddress (vx : Byte) : Word := BitVec.ofNat 16 (vx.toNat * Config.glyphLen)

/-- The hundreds, tens and ones digit of a byte, each in a byte of its own (R155). -/
def bcdDigits (vx : Byte) : List Byte :=
  [BitVec.ofNat 8 (vx.toNat / 100), BitVec.ofNat 8 (vx.toNat / 10 % 10), BitVec.ofNat 8 (vx.toNat % 10)]

/-- How many registers V0..VX are (R45). -/
def runLength (x : Reg) : Nat := x.toNat + 1

/-- `V[k], V[k+1], ...`, `n` of them, as `FX55` stores them from k = 0 (R156). -/
def State.readVList (s : State) : Nat → Nat → List Byte
  | _, 0 => []
  | k, n + 1 => s.readV (BitVec.ofNat 4 k) :: State.readVList s (k + 1) n

/-- `u16(i0 + X + 1)` (R156, R157). -/
def indexPast (i : Word) (x : Reg) : Word := BitVec.ofNat 16 (i.toNat + runLength x)

end Sys2Proof.Machine
end

