-- ==== Sys2Proof/Machine/Undefined.lean ====
section
/-! DEFINITION. Undefined words and `0NNN` (47_undefined.md R165, R166). -/

namespace Sys2Proof.Machine

/-- The execute stage of an `Undefined` word: it is reported, and no register, memory, stack,
framebuffer, flag or PC is written (R165, R171). -/
def State.reportDecodeError (s : State) (w : Word) : State := s.setStatus (.decodeError w)

/-- `0NNN` SYS: reserved; its behaviour is that of an `Undefined` word (R166, decision D5; log entry 7). -/
def execSys (nnn : Addr12) (s : State) : Host.Outcome State Fault Refusal :=
  .next (s.reportDecodeError (addressOperand nnn))

end Sys2Proof.Machine
end

