-- ==== Sys2Proof/Machine/Cycle.lean ====
section
/-! DEFINITION. The stages of a cycle around the execute stage (40_cycle.md R80 to R86, 60_exceptions.md
R185, R186): the fetch, the status a cycle begins with, the tick, and the cycle of a halted engine. -/

namespace Sys2Proof.Machine

/-- `MemRead(PC, 2)`: two byte reads, each checked, the lower address in the high half; PC is not moved
and need not be even (R81, R40, R44). -/
def fetch (s : State) : Except EngineFault Word :=
  match checkRange s.pc.toNat 2 with
  | .ok _ => .ok (wordOfBytes (s.mem.read s.pc.toNat) (s.mem.read (s.pc.toNat + 1)))
  | .error f => .error f

/-- A timer one tick later: it stops at 0 and never wraps (R185). -/
def countDown (b : Byte) : Byte := BitVec.ofNat 8 (b.toNat - 1)

/-- The beep of a tick that starts with this ST: 1 exactly when the tick takes ST from 1 to 0 (R186,
decision D17). -/
def beepEdge (st : Byte) : Bool := st == 1#8

/-- `Tick()` (R185), with its result in the beep output (R80). -/
def State.tick (s : State) : State :=
  { s with dt := countDown s.dt, st := countDown s.st, beep := some (beepEdge s.st) }

/-- `status <- Ok` before execute (R80). -/
def State.beginExecute (s : State) : State := s.setStatus .ok

/-- What follows execute: the tick, unless execute raised a fatal fault (R80, R84, decision D4). The
tick also runs after a decode error and in a waiting cycle. Log entry 17. -/
def State.endExecute (s : State) : State :=
  match s.run with
  | .running => s.tick
  | .halted _ => s

/-- The end of the cycle over the outcome of the execute stage. -/
def endCycle (o : Host.Outcome State Fault Refusal) : Host.Outcome State Fault Refusal :=
  match o with
  | .next s => .next s.endExecute
  | .fault f => .fault f
  | .refused r => .refused r

/-- A cycle of a halted engine: the outputs report the stored fault and nothing changes (R86, R80). -/
def State.haltedCycle (s : State) (f : EngineFault) : State :=
  { s with status := some (.fault f), beep := some false }

end Sys2Proof.Machine
end

