-- ==== Sys2Proof/Machine/Flags.lean ====
section
/-! DEFINITION. What the one flag, VF, becomes in each of the seven instructions that write it
(10_state.md R11). The collision of `DXYN` is computed with the pixels, in Display.lean (R147). -/

namespace Sys2Proof.Machine

/-- `8XY4`: carry, on the unreduced sum (R126). -/
def carry (vx vy : Byte) : Bool := decide (vx.toNat + vy.toNat > 255)

/-- `8XY5` and `8XY7`: NOT borrow, of minuend and subtrahend (R127, R129). -/
def noBorrow (minuend subtrahend : Byte) : Bool := !decide (minuend.toNat < subtrahend.toNat)

/-- `8XY6`: the bit that leaves at the right (R128). -/
def shiftedOutLow (vx : Byte) : Bool := vx.getLsbD 0

/-- `8XYE`: the bit that leaves at the left (R130). -/
def shiftedOutHigh (vx : Byte) : Bool := vx.getLsbD 7

/-- `FX1E`: whether the unreduced sum exceeds 0xFFF (R153). -/
def indexBeyondMemory (i : Word) (vx : Byte) : Bool := decide (i.toNat + vx.toNat > 0xFFF)

end Sys2Proof.Machine
end

