-- ==== Sys2Proof/Machine/Display.lean ====
section
/-! DEFINITION. The framebuffer (10_state.md R22) and the XOR blitter over it (45_sprite.md R145 to
R147), written as the spec's own loop over rows and columns. -/

namespace Sys2Proof.Machine

/-- `FB[x, y]` (R22). -/
def pixel (fb : Framebuffer) (x : Fin 64) (y : Fin 32) : Bool := fb[y.val].getLsbD x.val

/-- `FB[x, y] <- FB[x, y] XOR 1` (R145). -/
def togglePixel (fb : Framebuffer) (x : Fin 64) (y : Fin 32) : Framebuffer :=
  fb.set y.val (fb[y.val] ^^^ BitVec.twoPow 64 x.val)

/-- All 2048 pixels 0 (R100, R30). -/
def clearFramebuffer : Framebuffer := Vector.replicate 32 0#64

/-- The screen column of sprite column `c`: `(vx + c) mod 64`, wrapped and never clipped (R146). -/
def screenX (vx : Byte) (c : Nat) : Fin 64 := ⟨(vx.toNat + c) % 64, Nat.mod_lt _ (by decide)⟩

/-- The screen row of sprite row `r`: `(vy + r) mod 32` (R146). -/
def screenY (vy : Byte) (r : Nat) : Fin 32 := ⟨(vy.toNat + r) % 32, Nat.mod_lt _ (by decide)⟩

/-- The sprite bit of column `c`: bit 7 is column 0 (R146, decision D12; log entry 15). -/
def spriteBit (row : Byte) (c : Nat) : Bool := row.getLsbD (7 - c)

/-- One sprite bit: a 1 toggles its pixel, and a pixel that goes set to unset is a collision; a 0 does
nothing (R145, R147). -/
def blitPixel (vx vy : Byte) (r : Nat) (row : Byte) (acc : Framebuffer × Bool) (c : Nat) :
    Framebuffer × Bool :=
  if spriteBit row c then
    (togglePixel acc.1 (screenX vx c) (screenY vy r),
     acc.2 || pixel acc.1 (screenX vx c) (screenY vy r))
  else acc

/-- One sprite row: columns 0 to 7 (R145). -/
def blitRow (vx vy : Byte) (r : Nat) (row : Byte) (acc : Framebuffer × Bool) : Framebuffer × Bool :=
  (List.range 8).foldl (blitPixel vx vy r row) acc

/-- The sprite rows from row `r` on (R145). -/
def blitRows (vx vy : Byte) : Nat → List Byte → Framebuffer × Bool → Framebuffer × Bool
  | _, [], acc => acc
  | r, row :: rows, acc => blitRows vx vy (r + 1) rows (blitRow vx vy r row acc)

/-- The whole sprite: the new framebuffer and the collision flag (R145, R147). -/
def blit (fb : Framebuffer) (vx vy : Byte) (rows : List Byte) : Framebuffer × Bool :=
  blitRows vx vy 0 rows (fb, false)

end Sys2Proof.Machine
end

