-- ==== Sys2Proof/Machine/Alu.lean ====
section
/-! DEFINITION. The register and ALU instructions (43_register_alu.md R120 to R133). Operands are read
before anything is written (R131). -/

namespace Sys2Proof.Machine

/-- A result in VX and no flag (R133). -/
def finishResult (x : Reg) (result : Byte) (s : State) : Host.Outcome State Fault Refusal :=
  .next (s.writeV x result).advance

/-- A result in VX, then the flag in VF (R131, R133). -/
def finishResultAndFlag (x : Reg) (result : Byte) (flag : Bool) (s : State) :
    Host.Outcome State Fault Refusal :=
  .next (s.writeResultAndFlag x result flag).advance

/-- `6XNN` LD VX, NN (R120). -/
def execLdImm (x : Reg) (nn : Byte) (s : State) : Host.Outcome State Fault Refusal :=
  finishResult x nn s

/-- `7XNN` ADD VX, NN: no flag (R121). -/
def execAddImm (x : Reg) (nn : Byte) (s : State) : Host.Outcome State Fault Refusal :=
  finishResult x (add8 (s.readV x) nn) s

/-- `8XY0` LD VX, VY (R122). -/
def execLdReg (x y : Reg) (s : State) : Host.Outcome State Fault Refusal :=
  finishResult x (s.readV y) s

/-- `8XY1` OR: VF is left alone (R123). -/
def execOrReg (x y : Reg) (s : State) : Host.Outcome State Fault Refusal :=
  finishResult x (s.readV x ||| s.readV y) s

/-- `8XY2` AND: VF is left alone (R124). -/
def execAndReg (x y : Reg) (s : State) : Host.Outcome State Fault Refusal :=
  finishResult x (s.readV x &&& s.readV y) s

/-- `8XY3` XOR: VF is left alone (R125). -/
def execXorReg (x y : Reg) (s : State) : Host.Outcome State Fault Refusal :=
  finishResult x (s.readV x ^^^ s.readV y) s

/-- `8XY4` ADD VX, VY (R126). -/
def execAddReg (x y : Reg) (s : State) : Host.Outcome State Fault Refusal :=
  finishResultAndFlag x (add8 (s.readV x) (s.readV y)) (carry (s.readV x) (s.readV y)) s

/-- `8XY5` SUB VX, VY (R127). -/
def execSubReg (x y : Reg) (s : State) : Host.Outcome State Fault Refusal :=
  finishResultAndFlag x (sub8 (s.readV x) (s.readV y)) (noBorrow (s.readV x) (s.readV y)) s

/-- `8XY6` SHR VX: VY is ignored (R128, R66). -/
def execShr (x _y : Reg) (s : State) : Host.Outcome State Fault Refusal :=
  finishResultAndFlag x (shiftRight8 (s.readV x)) (shiftedOutLow (s.readV x)) s

/-- `8XY7` SUBN VX, VY: VY minus VX (R129). -/
def execSubnReg (x y : Reg) (s : State) : Host.Outcome State Fault Refusal :=
  finishResultAndFlag x (sub8 (s.readV y) (s.readV x)) (noBorrow (s.readV y) (s.readV x)) s

/-- `8XYE` SHL VX: VY is ignored (R130, R66). -/
def execShl (x _y : Reg) (s : State) : Host.Outcome State Fault Refusal :=
  finishResultAndFlag x (shiftLeft8 (s.readV x)) (shiftedOutHigh (s.readV x)) s

end Sys2Proof.Machine
end

