-- ==== Sys2Proof/Machine/Flow.lean ====
section
/-! DEFINITION. The flow instructions (41_flow.md R100 to R104). -/

namespace Sys2Proof.Machine

/-- `00E0` CLS (R100). -/
def execCls (s : State) : Host.Outcome State Fault Refusal :=
  .next (s.present clearFramebuffer).advance

/-- `00EE` RET: pop, and go on two past the call (R101). -/
def execRet (s : State) : Host.Outcome State Fault Refusal :=
  s.settle (match s.pop with
    | .ok (a, t) => .ok (t.setPc (a + 2#16))
    | .error f => .error f)

/-- `1NNN` JP (R102). -/
def execJp (nnn : Addr12) (s : State) : Host.Outcome State Fault Refusal :=
  .next (s.setPc (addressOperand nnn))

/-- `2NNN` CALL: push the address of this word, and jump (R103). -/
def execCall (nnn : Addr12) (s : State) : Host.Outcome State Fault Refusal :=
  s.settle (match s.push s.pc with
    | .ok t => .ok (t.setPc (addressOperand nnn))
    | .error f => .error f)

/-- `BNNN` JP V0 (R104). -/
def execJpV0 (nnn : Addr12) (s : State) : Host.Outcome State Fault Refusal :=
  .next (s.setPc (indexedTarget nnn (s.readV 0#4)))

end Sys2Proof.Machine
end

