-- ==== Sys2Proof/Machine/FxGroup.lean ====
section
/-! DEFINITION. Class F: timers, index, font, decimal digits, register store and load, key wait
(46_fx_timer_index_memory_key.md R150 to R159). The directions of the timer moves are the canonical
table's (93_implementation_defined.md G2; log entry 16). -/

namespace Sys2Proof.Machine

/-- `FX07` LD VX, DT: the value before this cycle's tick (R150). -/
def execLdVxDt (x : Reg) (s : State) : Host.Outcome State Fault Refusal :=
  finishResult x s.dt s

/-- `FX0A` LD VX, K: with a key down, its index; with none, the status says so and PC stays (R158). -/
def execLdVxK (x : Reg) (s : State) : Host.Outcome State Fault Refusal :=
  match s.lowestKey with
  | some k => finishResult x (BitVec.ofNat 8 k.val) s
  | none => .next (s.setStatus .awaitingKey)

/-- `FX15` LD DT, VX (R151). -/
def execLdDtVx (x : Reg) (s : State) : Host.Outcome State Fault Refusal :=
  .next (s.setDt (s.readV x)).advance

/-- `FX18` LD ST, VX (R152). -/
def execLdStVx (x : Reg) (s : State) : Host.Outcome State Fault Refusal :=
  .next (s.setSt (s.readV x)).advance

/-- `FX1E` ADD I, VX, with the flag from the unreduced sum (R153). -/
def execAddI (x : Reg) (s : State) : Host.Outcome State Fault Refusal :=
  .next ((s.setI (indexSum s.i (s.readV x))).writeFlag (indexBeyondMemory s.i (s.readV x))).advance

/-- `FX29` LD F, VX (R154). -/
def execLdF (x : Reg) (s : State) : Host.Outcome State Fault Refusal :=
  .next (s.setI (glyphAddress (s.readV x))).advance

/-- `FX33` LD B, VX: three digits at I, I+1, I+2; I stays (R155). -/
def execLdB (x : Reg) (s : State) : Host.Outcome State Fault Refusal :=
  s.settle (match s.mem.store s.i.toNat (bcdDigits (s.readV x)) with
    | .ok m => .ok (s.setMem m).advance
    | .error f => .error f)

/-- `FX55` LD [I], VX: V0..VX at I.., then I past them (R156). -/
def execStoreRegs (x : Reg) (s : State) : Host.Outcome State Fault Refusal :=
  s.settle (match s.mem.store s.i.toNat (s.readVList 0 (runLength x)) with
    | .ok m => .ok ((s.setMem m).setI (indexPast s.i x)).advance
    | .error f => .error f)

/-- `FX65` LD VX, [I]: V0..VX from I.., then I past them (R157). -/
def execLoadRegs (x : Reg) (s : State) : Host.Outcome State Fault Refusal :=
  s.settle (match s.mem.load s.i.toNat (runLength x) with
    | .ok bytes => .ok ((s.writeVList 0 bytes).setI (indexPast s.i x)).advance
    | .error f => .error f)

end Sys2Proof.Machine
end

