-- ==== Sys2Proof/Machine/IndexRandom.lean ====
section
/-! DEFINITION. Index load and random (44_index_random.md R140, R141). -/

namespace Sys2Proof.Machine

/-- `ANNN` LD I, NNN (R140). -/
def execLdI (nnn : Addr12) (s : State) : Host.Outcome State Fault Refusal :=
  .next (s.setI (addressOperand nnn)).advance

/-- `CXNN` RND VX, NN: a free byte, masked (R141, decision D14; log entry 3). -/
def execRnd (x : Reg) (nn : Byte) (s : State) : Host.Outcome State Fault Refusal :=
  finishResult x (s.draw8.1 &&& nn) s.draw8.2

end Sys2Proof.Machine
end

