-- ==== Sys2Proof/Machine/Skip.lean ====
section
/-! DEFINITION. The six conditional skips (42_skip.md R110 to R117). Which tests equality and which
inequality, pressed and not pressed, is the canonical table's assignment (93_implementation_defined.md
G2; log entry 16). -/

namespace Sys2Proof.Machine

/-- The common law of the skips (R116). -/
def skipIf (cond : Bool) (s : State) : Host.Outcome State Fault Refusal :=
  .next (if cond then s.setPc (s.pc + 4#16) else s.advance)

/-- `3XNN` SE VX, NN (R110). -/
def execSeImm (x : Reg) (nn : Byte) (s : State) : Host.Outcome State Fault Refusal :=
  skipIf (s.readV x == nn) s

/-- `4XNN` SNE VX, NN (R111). -/
def execSneImm (x : Reg) (nn : Byte) (s : State) : Host.Outcome State Fault Refusal :=
  skipIf (s.readV x != nn) s

/-- `5XY0` SE VX, VY (R112). -/
def execSeReg (x y : Reg) (s : State) : Host.Outcome State Fault Refusal :=
  skipIf (s.readV x == s.readV y) s

/-- `9XY0` SNE VX, VY (R113). -/
def execSneReg (x y : Reg) (s : State) : Host.Outcome State Fault Refusal :=
  skipIf (s.readV x != s.readV y) s

/-- `EX9E` SKP VX (R114, R117). -/
def execSkp (x : Reg) (s : State) : Host.Outcome State Fault Refusal :=
  skipIf (s.keyDown (keyIndex (s.readV x))) s

/-- `EXA1` SKNP VX (R115, R117). -/
def execSknp (x : Reg) (s : State) : Host.Outcome State Fault Refusal :=
  skipIf (!s.keyDown (keyIndex (s.readV x))) s

end Sys2Proof.Machine
end

