-- ==== Sys2Proof/Machine/Sprite.lean ====
section
/-! DEFINITION. The sprite instruction (45_sprite.md R145). -/

namespace Sys2Proof.Machine

/-- `DXYN` DRW VX, VY, N: all N rows are read and checked before anything is written; then the pixels,
the flag, `REDRAW` and PC (R145). -/
def execDrw (x y : Reg) (n : Nibble) (s : State) : Host.Outcome State Fault Refusal :=
  s.settle (match s.mem.load s.i.toNat n.toNat with
    | .ok rows =>
      .ok (((s.present (blit s.fb (s.readV x) (s.readV y) rows).1).writeFlag
        (blit s.fb (s.readV x) (s.readV y) rows).2).advance)
    | .error f => .error f)

end Sys2Proof.Machine
end

