-- ==== Sys2Proof/Machine/Step.lean ====
section
/-! DEFINITION. One cycle (40_cycle.md R80), and the placing of a word where the next cycle fetches it. -/

namespace Sys2Proof.Machine

/-- `Cycle` (R80): a halted engine only reports; otherwise fetch, decode, execute, tick. A fetch that
raises has no decode and no execute (R178). -/
def step (s : State) : Host.Outcome State Fault Refusal :=
  match s.run with
  | .halted f => .next (s.haltedCycle f)
  | .running =>
    match fetch s with
    | .error f => .next (s.raise f)
    | .ok w =>
      match decode w with
      | .error _ => .next (s.beginExecute.reportDecodeError w).endExecute
      | .ok i => endCycle (exec i s.beginExecute)

/-- `s` with a word of the opcode table stored where the next cycle fetches it: at PC, high byte first.
A halted engine is set running, and a PC outside the memory to the reset PC, since the next cycle
would not fetch otherwise; nothing else changes. Log entry 18. -/
def State.withFetchWord (s : State) (nbits w : Nat) : State :=
  let pc := if s.pc.toNat < 0xFFF then s.pc else Config.resetPc
  { s with
    run := .running
    pc := pc
    mem := s.mem.writeList pc.toNat [firstByte (tableWord nbits w), secondByte (tableWord nbits w)] }

end Sys2Proof.Machine
end

