-- ==== Sys2Proof/Machine/HostInterface.lean ====
section
/-! DEFINITION. The host's side of the interface (40_cycle.md R87, R88): what the host may do, all of it
between cycles (20_memory.md R54), what it can read, and the order in which it may act
(70_reset_and_hazards.md R213). -/

namespace Sys2Proof.Machine

/-! ## The operations -/

/-- The loader's two errors (R175): results of the host's operation, never of a cycle. -/
inductive LoaderError where
  /-- The image is longer than 3584 bytes. -/
  | romTooLarge
  /-- The host's byte source cannot be read. -/
  | romUnreadable
  deriving DecidableEq, Repr

/-- `initialize` (R210): every piece of state at its reset value (R30), but `KEY`, which it does not
touch (R24, decision D18), and the model's count of draws, so that a restart does not draw the same
bytes again (log entry 3). -/
def State.reinitialize (s : State) : State := { State.reset with keys := s.keys, draws := s.draws }

/-- `load(rom)` (R55): at most 3584 bytes, verbatim from 0x200; a failing load writes nothing
(decision D22; log entry 19). -/
def State.loadRom (s : State) (rom : List Byte) : Except LoaderError State :=
  if rom.length ≤ Config.romMax then .ok (s.setMem (s.mem.writeList Config.romBase rom))
  else .error .romTooLarge

/-- `load` over a byte source that may be unreadable (R55, R175): `none` is such a source. -/
def State.loadFrom (s : State) : Option (List Byte) → Except LoaderError State
  | some rom => s.loadRom rom
  | none => .error .romUnreadable

/-- The host writes the keypad (R24, R92): any of the 65536 combinations. -/
def State.writeKeys (s : State) (keys : Vector Bool 16) : State := { s with keys := keys }

/-- The host clears `REDRAW` after reading the framebuffer (R23). -/
def State.clearRedraw (s : State) : State := { s with redraw := false }

/-! ## What the host reads -/

/-- The framebuffer export: element `y * 64 + x` is `FB[x, y]` (R22, R189). -/
def framebufferExport (fb : Framebuffer) : Vector Bool 2048 :=
  Vector.ofFn fun k => pixel fb ⟨k.val % 64, by omega⟩ ⟨k.val / 64, by omega⟩

/-- The outputs of the engine (R87). -/
structure HostView where
  status : Option Status
  beep   : Option Bool
  redraw : Bool
  pixels : Vector Bool 2048
  deriving DecidableEq, Repr

/-- What the host can see of the machine between cycles (R87, R54). -/
def State.hostView (s : State) : HostView := ⟨s.status, s.beep, s.redraw, framebufferExport s.fb⟩

/-- The numbers the spec assigns to the causes (R176, decision D15), for a status port that needs them. -/
def Status.code : Status → Nat
  | .ok => 0
  | .decodeError _ => 1
  | .fault (.memoryFault _) => 2
  | .fault (.stackOverflow _) => 3
  | .fault (.stackUnderflow _) => 4
  | .awaitingKey => 7

/-- The numbers of the loader's errors (R176). -/
def LoaderError.code : LoaderError → Nat
  | .romTooLarge => 5
  | .romUnreadable => 6

/-! ## The order of a run (R88, R213) -/

/-- Where the host stands in the boot sequence. It is the host's protocol and no state of the machine.
Log entry 20. -/
inductive Phase where
  /-- After power-on or `initialize`: nothing loaded, no cycle run. -/
  | initialized
  /-- After a load that succeeded. -/
  | loaded
  /-- After the first cycle. -/
  | running
  /-- After a load that failed: the run does not start (R213). -/
  | bootFailed (e : LoaderError)
  deriving DecidableEq, Repr

/-- The machine and the host's place in the sequence. -/
structure Session where
  machine : State
  phase   : Phase
  deriving DecidableEq, Repr

/-- One act of the host (R54, R87): it has no other. -/
inductive HostAct where
  | reinitialize
  | load (source : Option (List Byte))
  | writeKeys (keys : Vector Bool 16)
  | clearRedraw
  | cycle
  deriving DecidableEq, Repr

/-- Power-on is an implicit `initialize` (R212, decision D2). -/
def Session.powerOn : Session := ⟨State.reset, .initialized⟩

/-- One act, or none where the interface gives the host no such move: a load is made once, after
`initialize` and before the first cycle, and no cycle follows a load that failed (R88, R213). -/
def Session.act (x : Session) : HostAct → Option Session
  | .reinitialize => some ⟨x.machine.reinitialize, .initialized⟩
  | .writeKeys keys => some { x with machine := x.machine.writeKeys keys }
  | .clearRedraw => some { x with machine := x.machine.clearRedraw }
  | .load source =>
    match x.phase with
    | .initialized =>
      match x.machine.loadFrom source with
      | .ok s => some ⟨s, .loaded⟩
      | .error e => some { x with phase := .bootFailed e }
    | .loaded | .running | .bootFailed _ => none
  | .cycle =>
    match x.phase with
    | .bootFailed _ => none
    | .initialized | .loaded | .running =>
      match step x.machine with
      | .next s => some ⟨s, .running⟩
      | .fault _ | .refused _ => none

/-- A run: the acts of a host, one after another. -/
def Session.run (x : Session) : List HostAct → Option Session
  | [] => some x
  | a :: rest =>
    match x.act a with
    | some y => y.run rest
    | none => none

end Sys2Proof.Machine
end

