-- ==== Sys2Proof/Safety.lean ====
section
/-! DEFINITION. The terms in which claims are stated: which state stays as it was, the two invariants of
the machine, and the spec's reading of the end of a run. -/

namespace Sys2Proof.Machine

/-! ## Frames -/

/-- The names of the fields of `State`. -/
inductive Field where
  | v | i | pc | dt | st | stack | sp | mem | fb | redraw | keys | run | status | beep | draws
  deriving DecidableEq, Repr

/-- A field holds in `t` what it held in `s`: a register file register by register, memory through the
read of every address, the framebuffer through every pixel. -/
def SameField (f : Field) (s t : State) : Prop :=
  match f with
  | .v => ∀ r, t.readV r = s.readV r
  | .i => t.i = s.i
  | .pc => t.pc = s.pc
  | .dt => t.dt = s.dt
  | .st => t.st = s.st
  | .stack => ∀ k : Fin 16, t.stack[k.val] = s.stack[k.val]
  | .sp => t.sp = s.sp
  | .mem => ∀ a, t.mem.read a = s.mem.read a
  | .fb => ∀ x y, pixel t.fb x y = pixel s.fb x y
  | .redraw => t.redraw = s.redraw
  | .keys => ∀ k, t.keyDown k = s.keyDown k
  | .run => t.run = s.run
  | .status => t.status = s.status
  | .beep => t.beep = s.beep
  | .draws => t.draws = s.draws

/-- Every field outside the list holds in `t` what it held in `s`. -/
def UnchangedBut (changed : List Field) (s t : State) : Prop :=
  ∀ f, f ∉ changed → SameField f s t

/-- Every general register outside the list holds in `t` what it held in `s`. -/
def RegsUnchangedBut (changed : List Reg) (s t : State) : Prop :=
  ∀ r, r ∉ changed → t.readV r = s.readV r

/-- Every byte outside the `n` bytes from `base` reads in `t` as it read in `s`. -/
def MemUnchangedOutside (base n : Nat) (s t : State) : Prop :=
  ∀ a, a < base ∨ base + n ≤ a → t.mem.read a = s.mem.read a

/-! ## What one instruction does -/

/-- The word with this number decodes to the instruction. -/
def DecodesTo (word : Nat) (i : Instr) : Prop := decode (BitVec.ofNat 16 word) = .ok i

/-- `exec` completes with this byte in this register, every other register as it was, PC two further,
and nothing else changed. -/
def WritesRegister (i : Instr) (s : State) (x : Reg) (b : Byte) : Prop :=
  ∃ t, exec i s = .next t ∧ t.readV x = b ∧ RegsUnchangedBut [x] s t ∧ t.pc = s.pc + 2#16 ∧
    UnchangedBut [.v, .pc] s t

/-- `exec` completes with this flag in VF, this result in VX unless VX is VF, every other register as
it was, PC two further, and nothing else changed. -/
def WritesResultAndFlag (i : Instr) (s : State) (x : Reg) (result : Byte) (flag : Bool) : Prop :=
  ∃ t, exec i s = .next t ∧ t.readV 0xF#4 = (if flag then 1#8 else 0#8) ∧
    (x ≠ 0xF#4 → t.readV x = result) ∧ RegsUnchangedBut [x, 0xF#4] s t ∧ t.pc = s.pc + 2#16 ∧
    UnchangedBut [.v, .pc] s t

/-- `exec` completes with PC four further when the condition holds and two further when it does not,
and nothing else changed. -/
def SkipsWhen (i : Instr) (s : State) (cond : Bool) : Prop :=
  ∃ t, exec i s = .next t ∧ t.pc = (if cond then s.pc + 4#16 else s.pc + 2#16) ∧ UnchangedBut [.pc] s t

/-- What a fatal fault leaves (R179): `RUN` halted with it, the status reporting it, no beep, and
nothing else changed. -/
def RaisedOver (f : EngineFault) (s t : State) : Prop :=
  t.run = .halted f ∧ t.status = some (.fault f) ∧ t.beep = some false ∧
    UnchangedBut [.run, .status, .beep] s t

/-- `exec` raises this fault over the state. -/
def Raises (i : Instr) (s : State) (f : EngineFault) : Prop :=
  ∃ t, exec i s = .next t ∧ RaisedOver f s t

/-- The fields that the spec lets an instruction write when it completes, beside PC (R12, R17 to R24,
R45, R141). `status` stands for the wait of `FX0A` and the report of `0NNN`. -/
def mayWrite : Instr → List Field
  | .cls => [.fb, .redraw]
  | .ret => [.sp]
  | .call _ => [.stack, .sp]
  | .jp _ | .jpV0 _ | .seImm _ _ | .sneImm _ _ | .seReg _ _ | .sneReg _ _ | .skp _ | .sknp _ => []
  | .ldImm _ _ | .addImm _ _ | .ldReg _ _ | .orReg _ _ | .andReg _ _ | .xorReg _ _ | .addReg _ _
  | .subReg _ _ | .shr _ _ | .subnReg _ _ | .shl _ _ | .ldVxDt _ => [.v]
  | .ldI _ | .ldF _ => [.i]
  | .rnd _ _ => [.v, .draws]
  | .drw _ _ _ => [.v, .fb, .redraw]
  | .ldVxK _ => [.v, .status]
  | .ldDtVx _ => [.dt]
  | .ldStVx _ => [.st]
  | .addI _ => [.v, .i]
  | .ldB _ => [.mem]
  | .storeRegs _ => [.mem, .i]
  | .loadRegs _ => [.v, .i]
  | .sys _ => [.status]

/-- The general registers that the spec lets an instruction write (R10, R11): its X register, V0..VX for
`FX65`, and VF for the seven instructions that set the flag. -/
def mayWriteReg (i : Instr) (r : Reg) : Bool :=
  match i with
  | .ldImm x _ | .addImm x _ | .ldReg x _ | .orReg x _ | .andReg x _ | .xorReg x _ | .rnd x _
  | .ldVxDt x | .ldVxK x => r == x
  | .addReg x _ | .subReg x _ | .shr x _ | .subnReg x _ | .shl x _ => r == x || r == 0xF#4
  | .drw _ _ _ | .addI _ => r == 0xF#4
  | .loadRegs x => decide (r ≤ x)
  | .cls | .ret | .jp _ | .call _ | .seImm _ _ | .sneImm _ _ | .seReg _ _ | .sneReg _ _ | .ldI _
  | .jpV0 _ | .skp _ | .sknp _ | .ldDtVx _ | .ldStVx _ | .ldF _ | .ldB _ | .storeRegs _ | .sys _ => false

/-! ## Sprites -/

/-- Some 1 bit of a sprite of `n` rows lands on this pixel (R146, R147): row r at screen row
`(vy + r) mod 32`, and its bit `7 - c` at screen column `(vx + c) mod 64`. -/
abbrev SpriteCovers (row : Nat → Byte) (n : Nat) (vx vy : Byte) (x : Fin 64) (y : Fin 32) : Prop :=
  ∃ (r : Fin n) (c : Fin 8), (row r.val).getLsbD (7 - c.val) = true ∧
    (vx.toNat + c.val) % 64 = x.val ∧ (vy.toNat + r.val) % 32 = y.val

/-- Row `r` of the sprite that `I` points at (R145). -/
def spriteRow (s : State) (r : Nat) : Byte := s.mem.read (s.i.toNat + r)

/-! ## Invariants -/

/-- What 10_state.md R16 derives: PC is at most 0x10FE, and every return address held is the address of
an instruction that was fetched. -/
def PcBounded (s : State) : Prop :=
  s.pc.toNat ≤ 0x10FE ∧ ∀ k : Fin 16, k.val < s.sp.val → s.stack[k.val].toNat ≤ 0xFFE

/-- Memory is in its canonical form. -/
def MemCanonical (s : State) : Prop := s.mem.wf = true

/-! ## Runs -/

/-- The engine is running and the word at PC can be fetched. -/
def CanFetch (s : State) : Prop := s.run = .running ∧ s.pc.toNat ≤ 0xFFE

/-- The word at PC, high byte first (R40). -/
def wordAtPc (s : State) : Word := wordOfBytes (s.mem.read s.pc.toNat) (s.mem.read (s.pc.toNat + 1))

/-- The convention of R93 (decision D21): a program has finished when PC rests on a jump to itself. It
is a reading aid, no hardware. -/
def Finished (s : State) : Prop := CanFetch s ∧ wordAtPc s = formatFA 0x1#4 (s.pc.setWidth 12)

end Sys2Proof.Machine
end

