-- ==== Sys2Proof/Certificates/Slice0/Obligations.lean ====
section
/-! DEFINITION. The statements about the machine, for the provers. A statement of basis 'stated'
formalises the whole of the numbered rules it cites; a statement of basis 'derived' rests on a decision
of the spec's own (92_eei_decisions.md), on its general knowledge (93_implementation_defined.md G1 to G7)
or on several rules together, and its docstring says so. -/

open Sys2Proof Sys2Proof.Machine

/-! ## Flow (41_flow.md) -/

/-- R100: `00E0` clears all 2048 pixels, sets `REDRAW`, moves PC on by two, and touches nothing else. -/
def Obligations.ClearScreenClearsPixelsAndRaisesRedraw : Prop :=
  DecodesTo 0x00E0 .cls ∧
  ∀ s : State, ∃ t, exec .cls s = .next t ∧ (∀ x y, pixel t.fb x y = false) ∧ t.redraw = true ∧
    t.pc = s.pc + 2#16 ∧ UnchangedBut [.fb, .redraw, .pc] s t

/-- R102: `1NNN` sets PC to NNN, any NNN, and touches nothing else; after a jump to 0xFFF it is the next
fetch that raises `MemoryFault(0x1000)`. -/
def Obligations.JumpSetsPcToAddress : Prop :=
  ∀ (nnn : Addr12) (s : State), DecodesTo (0x1000 + nnn.toNat) (.jp nnn) ∧
    ∃ t, exec (.jp nnn) s = .next t ∧ t.pc.toNat = nnn.toNat ∧ UnchangedBut [.pc] s t ∧
      (nnn = 0xFFF#12 → fetch t = .error (.memoryFault 0x1000))

/-- R104: `BNNN` sets PC to NNN + V0, unreduced, and touches nothing else; after a sum above 0xFFE it is
the next fetch that raises `MemoryFault`, with 0x1000 for the sum 0xFFF and with the sum above that. -/
def Obligations.IndexedJumpAddsV0 : Prop :=
  ∀ (nnn : Addr12) (s : State), DecodesTo (0xB000 + nnn.toNat) (.jpV0 nnn) ∧
    ∃ t, exec (.jpV0 nnn) s = .next t ∧ t.pc.toNat = nnn.toNat + (s.readV 0#4).toNat ∧
      UnchangedBut [.pc] s t ∧
      (0xFFE < nnn.toNat + (s.readV 0#4).toNat →
        fetch t = .error (.memoryFault (max (nnn.toNat + (s.readV 0#4).toNat) 0x1000)))

/-- Derived, from R103 and R20: with room on the stack `2NNN` pushes its own address and jumps; with 16
addresses held it raises `StackOverflow`. What the raise leaves is decision D3 (log entry 1). -/
def Obligations.CallPushesItsAddressOrOverflows : Prop :=
  ∀ (nnn : Addr12) (s : State), DecodesTo (0x2000 + nnn.toNat) (.call nnn) ∧
    (∀ h : s.sp.val < 16, ∃ t, exec (.call nnn) s = .next t ∧ t.stack[s.sp.val] = s.pc ∧
      (∀ k : Fin 16, k.val ≠ s.sp.val → t.stack[k.val] = s.stack[k.val]) ∧
      t.sp.val = s.sp.val + 1 ∧ t.pc.toNat = nnn.toNat ∧ UnchangedBut [.stack, .sp, .pc] s t) ∧
    (s.sp.val = 16 → Raises (.call nnn) s (.stackOverflow s.pc))

/-- Derived, from R101 and R20: with an address held `00EE` pops it and goes on two past it; with none
it raises `StackUnderflow`. That the entry keeps its bits is decision D19, what the raise leaves is D3
(log entry 1). -/
def Obligations.ReturnGoesPastTheCallOrUnderflows : Prop :=
  DecodesTo 0x00EE .ret ∧ ∀ s : State,
    (∀ k : Fin 16, s.sp.val = k.val + 1 → ∃ t, exec .ret s = .next t ∧ t.pc = s.stack[k.val] + 2#16 ∧
      t.sp.val = k.val ∧ UnchangedBut [.sp, .pc] s t) ∧
    (s.sp.val = 0 → Raises .ret s (.stackUnderflow s.pc))

/-- Derived, from R103 and R101 (95_test_vectors.md W4): a call and the return right after it leave PC
two past the call and the stack pointer and the held addresses as they were. -/
def Obligations.CallThenReturnComesBack : Prop :=
  ∀ (nnn : Addr12) (s : State), s.sp.val < 16 → ∃ t u, exec (.call nnn) s = .next t ∧
    exec .ret t = .next u ∧ u.pc = s.pc + 2#16 ∧ u.sp = s.sp ∧
    (∀ k : Fin 16, k.val < s.sp.val → u.stack[k.val] = s.stack[k.val]) ∧
    UnchangedBut [.stack, .pc] s u

/-! ## Skips (42_skip.md) -/

/-- Derived, from R116 and R110 to R113: the four compares skip one word exactly when their condition
holds. Which tests equality and which inequality is general knowledge G2 (log entry 16). -/
def Obligations.ComparesSkipOneWord : Prop :=
  ∀ (x y : Reg) (nn : Byte) (s : State),
    SkipsWhen (.seImm x nn) s (decide (s.readV x = nn)) ∧
    SkipsWhen (.sneImm x nn) s (decide (s.readV x ≠ nn)) ∧
    SkipsWhen (.seReg x y) s (decide (s.readV x = s.readV y)) ∧
    SkipsWhen (.sneReg x y) s (decide (s.readV x ≠ s.readV y))

/-- Derived, from R116, R114, R115 and R117: the two key tests look at the key that VX mod 16 names.
The index is decision D10 (log entry 12), which is pressed and which not pressed is G2 (log entry 16). -/
def Obligations.KeyTestsSkipOneWord : Prop :=
  ∀ (x : Reg) (s : State) (k : Fin 16), k.val = (s.readV x).toNat % 16 →
    SkipsWhen (.skp x) s s.keys[k.val] ∧ SkipsWhen (.sknp x) s (!s.keys[k.val])

/-! ## Registers and ALU (43_register_alu.md) -/

/-- R120: `6XNN` loads NN into VX. -/
def Obligations.LoadImmediateWritesConstant : Prop :=
  ∀ (x : Reg) (nn : Byte) (s : State),
    DecodesTo (0x6000 + x.toNat * 0x100 + nn.toNat) (.ldImm x nn) ∧ WritesRegister (.ldImm x nn) s x nn

/-- R121: `7XNN` adds NN to VX modulo 256, and no flag is written. -/
def Obligations.AddImmediateWrapsWithoutFlag : Prop :=
  ∀ (x : Reg) (nn : Byte) (s : State),
    DecodesTo (0x7000 + x.toNat * 0x100 + nn.toNat) (.addImm x nn) ∧
    WritesRegister (.addImm x nn) s x (s.readV x + nn)

/-- R122: `8XY0` copies VY into VX. -/
def Obligations.CopyWritesSourceRegister : Prop :=
  ∀ (x y : Reg) (s : State),
    DecodesTo (0x8000 + x.toNat * 0x100 + y.toNat * 0x10) (.ldReg x y) ∧
    WritesRegister (.ldReg x y) s x (s.readV y)

/-- R123, R124, R125: the three bitwise operations, which leave VF alone unless it is VX. -/
def Obligations.LogicWritesResultWithoutFlag : Prop :=
  ∀ (x y : Reg) (s : State),
    (DecodesTo (0x8001 + x.toNat * 0x100 + y.toNat * 0x10) (.orReg x y) ∧
      WritesRegister (.orReg x y) s x (s.readV x ||| s.readV y)) ∧
    (DecodesTo (0x8002 + x.toNat * 0x100 + y.toNat * 0x10) (.andReg x y) ∧
      WritesRegister (.andReg x y) s x (s.readV x &&& s.readV y)) ∧
    (DecodesTo (0x8003 + x.toNat * 0x100 + y.toNat * 0x10) (.xorReg x y) ∧
      WritesRegister (.xorReg x y) s x (s.readV x ^^^ s.readV y))

/-- Derived, from R126, R127 and R129: sum and differences modulo 256, with carry and NOT borrow in VF,
for every X and Y. That the flag wins when X = 0xF is decision D9 (log entry 10). -/
def Obligations.AddAndSubtractSetCarryAndBorrow : Prop :=
  ∀ (x y : Reg) (s : State),
    WritesResultAndFlag (.addReg x y) s x (s.readV x + s.readV y)
      (decide ((s.readV x).toNat + (s.readV y).toNat > 255)) ∧
    WritesResultAndFlag (.subReg x y) s x (s.readV x - s.readV y) (decide (s.readV y ≤ s.readV x)) ∧
    WritesResultAndFlag (.subnReg x y) s x (s.readV y - s.readV x) (decide (s.readV x ≤ s.readV y))

/-- Derived, from R128 and R130: VX shifted by one place, the bit that leaves in VF, whatever Y is.
That the flag wins when X = 0xF is decision D9 (log entry 10). -/
def Obligations.ShiftsMoveOnePlaceIntoFlag : Prop :=
  ∀ (x y : Reg) (s : State),
    WritesResultAndFlag (.shr x y) s x (s.readV x >>> 1) (decide ((s.readV x).toNat % 2 = 1)) ∧
    WritesResultAndFlag (.shl x y) s x (s.readV x <<< 1) (decide (128 ≤ (s.readV x).toNat))

/-- R133: all eleven instructions of the family complete with PC two further, raise nothing, and touch
no memory, timer, stack, framebuffer or I. -/
def Obligations.AluFamilyTouchesOnlyRegisters : Prop :=
  ∀ (x y : Reg) (nn : Byte) (s : State), ∀ i ∈ [Instr.ldImm x nn, .addImm x nn, .ldReg x y, .orReg x y,
      .andReg x y, .xorReg x y, .addReg x y, .subReg x y, .shr x y, .subnReg x y, .shl x y],
    ∃ t, exec i s = .next t ∧ t.pc = s.pc + 2#16 ∧ UnchangedBut [.v, .pc] s t

/-! ## Index and random (44_index_random.md) -/

/-- R140: `ANNN` sets I to NNN. -/
def Obligations.LoadIndexSetsAddress : Prop :=
  ∀ (nnn : Addr12) (s : State), DecodesTo (0xA000 + nnn.toNat) (.ldI nnn) ∧
    ∃ t, exec (.ldI nnn) s = .next t ∧ t.i.toNat = nnn.toNat ∧ t.pc = s.pc + 2#16 ∧
      UnchangedBut [.i, .pc] s t

/-- Derived, from R141 (decision D14; the counter of draws is the model's own, log entry 3): `CXNN`
writes the next free byte masked with NN, so that no bit outside NN is set, whatever the byte is. -/
def Obligations.RandomIsMaskedDraw : Prop :=
  ∀ (x : Reg) (nn : Byte) (s : State), ∃ t, exec (.rnd x nn) s = .next t ∧
    t.readV x = Config.randomByte s.draws &&& nn ∧ t.readV x &&& ~~~nn = 0#8 ∧
    t.draws = s.draws + 1 ∧ RegsUnchangedBut [x] s t ∧ t.pc = s.pc + 2#16 ∧
    UnchangedBut [.v, .pc, .draws] s t

/-! ## Sprites (45_sprite.md) -/

/-- Derived, from R145, R146 and R147: with its rows in memory `DXYN` flips exactly the pixels that the
sprite covers, VF says whether one of them was set before, and `REDRAW` is set. The bit order is decision
D12 (log entry 15). -/
def Obligations.DrawFlipsCoveredPixels : Prop :=
  ∀ (x y : Reg) (n : Nibble) (s : State), n = 0#4 ∨ s.i.toNat + n.toNat ≤ 4096 →
    ∃ t, exec (.drw x y n) s = .next t ∧
      (∀ px py, pixel t.fb px py =
        (pixel s.fb px py ^^ decide (SpriteCovers (spriteRow s) n.toNat (s.readV x) (s.readV y) px py))) ∧
      (t.readV 0xF#4 = 0#8 ∨ t.readV 0xF#4 = 1#8) ∧
      (t.readV 0xF#4 = 1#8 ↔ ∃ px py, SpriteCovers (spriteRow s) n.toNat (s.readV x) (s.readV y) px py ∧
        pixel s.fb px py = true) ∧
      t.redraw = true ∧ t.pc = s.pc + 2#16 ∧ RegsUnchangedBut [0xF#4] s t ∧
      UnchangedBut [.v, .fb, .redraw, .pc] s t

/-- Derived, from R148 (a), R147 and 95_test_vectors.md W5: the same sprite drawn twice from registers
other than VF leaves every pixel as it was; the second draw collides exactly when some covered pixel was
clear at first; and where all of them were, the first draw does not collide and the second does exactly
when the sprite has a 1 bit. (R148 (b) leaves that premise out: log entry 21. The bit order is decision
D12, log entry 15.) -/
def Obligations.DrawTwiceRestoresScreen : Prop :=
  ∀ (x y : Reg) (n : Nibble) (s : State), x ≠ 0xF#4 → y ≠ 0xF#4 → n = 0#4 ∨ s.i.toNat + n.toNat ≤ 4096 →
    ∃ t u, exec (.drw x y n) s = .next t ∧ exec (.drw x y n) t = .next u ∧
      (∀ px py, pixel u.fb px py = pixel s.fb px py) ∧
      (u.readV 0xF#4 = 1#8 ↔ ∃ px py,
        SpriteCovers (spriteRow s) n.toNat (s.readV x) (s.readV y) px py ∧ pixel s.fb px py = false) ∧
      ((∀ px py, SpriteCovers (spriteRow s) n.toNat (s.readV x) (s.readV y) px py →
          pixel s.fb px py = false) →
        t.readV 0xF#4 = 0#8 ∧
        (u.readV 0xF#4 = 1#8 ↔ ∃ r : Fin 16, r.val < n.toNat ∧ spriteRow s r.val ≠ 0#8))

/-! ## Class F (46_fx_timer_index_memory_key.md) -/

/-- Derived, from R150, R151 and R152: the three timer moves of the execute stage. Their directions are
general knowledge G2 (log entry 16). -/
def Obligations.TimerMovesCopyBytes : Prop :=
  ∀ (x : Reg) (s : State), WritesRegister (.ldVxDt x) s x s.dt ∧
    (∃ t, exec (.ldDtVx x) s = .next t ∧ t.dt = s.readV x ∧ t.pc = s.pc + 2#16 ∧
      UnchangedBut [.dt, .pc] s t) ∧
    (∃ t, exec (.ldStVx x) s = .next t ∧ t.st = s.readV x ∧ t.pc = s.pc + 2#16 ∧
      UnchangedBut [.st, .pc] s t)

/-- Derived, from R153 (the wrap of I at 16 bits is decision D8, log entry 14): `FX1E` adds VX to I, and
VF says whether the unreduced sum exceeds 0xFFF; with X = 0xF the old VF is the addend. -/
def Obligations.AddToIndexFlagsBeyondMemory : Prop :=
  ∀ (x : Reg) (s : State), ∃ t, exec (.addI x) s = .next t ∧
    t.i.toNat = (s.i.toNat + (s.readV x).toNat) % 65536 ∧
    t.readV 0xF#4 = (if s.i.toNat + (s.readV x).toNat > 0xFFF then 1#8 else 0#8) ∧
    RegsUnchangedBut [0xF#4] s t ∧ t.pc = s.pc + 2#16 ∧ UnchangedBut [.v, .i, .pc] s t

/-- R154: `FX29` sets I to five times VX, with no mask on VX. -/
def Obligations.GlyphPointerIsFiveTimesRegister : Prop :=
  ∀ (x : Reg) (s : State), DecodesTo (0xF029 + x.toNat * 0x100) (.ldF x) ∧
    ∃ t, exec (.ldF x) s = .next t ∧ t.i.toNat = (s.readV x).toNat * 5 ∧ t.pc = s.pc + 2#16 ∧
      UnchangedBut [.i, .pc] s t

/-- Derived, from R155: with room in memory `FX33` stores the three decimal digits of VX at I, I+1 and
I+2 and nothing else. Memory is taken in its canonical form, which every step keeps. -/
def Obligations.DecimalDigitsAreStored : Prop :=
  ∀ (x : Reg) (s : State), MemCanonical s → s.i.toNat + 3 ≤ 4096 →
    ∃ t, exec (.ldB x) s = .next t ∧
      (t.mem.read s.i.toNat).toNat * 100 + (t.mem.read (s.i.toNat + 1)).toNat * 10 +
        (t.mem.read (s.i.toNat + 2)).toNat = (s.readV x).toNat ∧
      (t.mem.read (s.i.toNat + 1)).toNat < 10 ∧ (t.mem.read (s.i.toNat + 2)).toNat < 10 ∧
      MemUnchangedOutside s.i.toNat 3 s t ∧ t.pc = s.pc + 2#16 ∧ UnchangedBut [.mem, .pc] s t

/-- Derived, from R156: with room in memory `FX55` stores V0..VX at I.. and nothing else, and moves I
past them. Memory is taken in its canonical form, which every step keeps. -/
def Obligations.StoreRegistersWritesRun : Prop :=
  ∀ (x : Reg) (s : State), MemCanonical s → s.i.toNat + (x.toNat + 1) ≤ 4096 →
    ∃ t, exec (.storeRegs x) s = .next t ∧
      (∀ k : Reg, k ≤ x → t.mem.read (s.i.toNat + k.toNat) = s.readV k) ∧
      MemUnchangedOutside s.i.toNat (x.toNat + 1) s t ∧ t.i.toNat = s.i.toNat + (x.toNat + 1) ∧
      t.pc = s.pc + 2#16 ∧ UnchangedBut [.mem, .i, .pc] s t

/-- Derived, from R157: with the bytes in memory `FX65` loads V0..VX from I.., leaves the registers above
VX alone, and moves I past the bytes. -/
def Obligations.LoadRegistersReadsRun : Prop :=
  ∀ (x : Reg) (s : State), s.i.toNat + (x.toNat + 1) ≤ 4096 →
    ∃ t, exec (.loadRegs x) s = .next t ∧
      (∀ k : Reg, t.readV k = if k ≤ x then s.mem.read (s.i.toNat + k.toNat) else s.readV k) ∧
      t.i.toNat = s.i.toNat + (x.toNat + 1) ∧ t.pc = s.pc + 2#16 ∧ UnchangedBut [.v, .i, .pc] s t

/-- Derived, from R172 and the exception lines of R145, R155, R156 and R157: a transfer with a byte
outside the memory raises `MemoryFault` with its lowest such address, and nothing else changes. The
recorded value is decision D15, what the raise leaves is D3 (log entry 1). -/
def Obligations.TransfersOutsideMemoryFault : Prop :=
  ∀ (x y : Reg) (n : Nibble) (s : State),
    (n ≠ 0#4 → 4096 < s.i.toNat + n.toNat → Raises (.drw x y n) s (.memoryFault (max s.i.toNat 4096))) ∧
    (4096 < s.i.toNat + 3 → Raises (.ldB x) s (.memoryFault (max s.i.toNat 4096))) ∧
    (4096 < s.i.toNat + (x.toNat + 1) →
      Raises (.storeRegs x) s (.memoryFault (max s.i.toNat 4096)) ∧
      Raises (.loadRegs x) s (.memoryFault (max s.i.toNat 4096)))

/-- Derived, from R158 (the lowest of several keys is decision D11, log entry 13): with a key down `FX0A`
writes its index and goes on; with none it reports that it waits and nothing else changes. -/
def Obligations.KeyWaitTakesLowestKey : Prop :=
  ∀ (x : Reg) (s : State),
    (∀ k : Fin 16, s.keys[k.val] = true → (∀ j : Fin 16, j < k → s.keys[j.val] = false) →
      WritesRegister (.ldVxK x) s x (BitVec.ofNat 8 k.val)) ∧
    ((∀ k : Fin 16, s.keys[k.val] = false) →
      ∃ t, exec (.ldVxK x) s = .next t ∧ t.status = some .awaitingKey ∧ UnchangedBut [.status] s t)

/-! ## Undefined words (47_undefined.md) -/

/-- Derived, from R166 (decision D5, log entry 7): `0NNN` only reports its word. -/
def Obligations.ReservedSlotReportsItsWord : Prop :=
  ∀ (nnn : Addr12) (s : State), ∃ t w, exec (.sys nnn) s = .next t ∧ w.toNat = nnn.toNat ∧
    t.status = some (.decodeError w) ∧ UnchangedBut [.status] s t

/-- Derived, from R165, R166 and R84 (that the tick runs is decision D4, log entry 17): a cycle that
fetches an undefined word, or a word of the reserved slot, reports it, leaves PC and everything else, and
ticks the timers. -/
def Obligations.UndefinedWordReportsAndTicks : Prop :=
  ∀ s : State, CanFetch s →
    ((∃ e, decode (wordAtPc s) = .error e) ∨ ∃ nnn, decode (wordAtPc s) = .ok (.sys nnn)) →
    ∃ t, step s = .next t ∧ t.status = some (.decodeError (wordAtPc s)) ∧
      t.dt.toNat = s.dt.toNat - 1 ∧ t.st.toNat = s.st.toNat - 1 ∧
      t.beep = some (decide (s.st.toNat = 1)) ∧ UnchangedBut [.dt, .st, .status, .beep] s t

/-- Derived, from R165 (decision D4, log entry 17): an undefined word is a livelock. After any number of
cycles PC is where it was, the timers have counted down as far as they go, and nothing else but the
outputs has changed. -/
def Obligations.UndefinedWordIsLivelock : Prop :=
  ∀ (s : State) (n : Nat), CanFetch s →
    ((∃ e, decode (wordAtPc s) = .error e) ∨ ∃ nnn, decode (wordAtPc s) = .ok (.sys nnn)) →
    ∃ t, core.run n s = .next t ∧ t.dt.toNat = s.dt.toNat - n ∧ t.st.toNat = s.st.toNat - n ∧
      UnchangedBut [.dt, .st, .status, .beep] s t

/-! ## The cycle (40_cycle.md) and the timers (60_exceptions.md) -/

/-- R40: the fetch reads the byte at PC into the high half of the word and the byte at PC + 1 into the
low half. -/
def Obligations.FetchIsBigEndian : Prop :=
  ∀ s : State, s.pc.toNat ≤ 0xFFE → ∃ w, fetch s = .ok w ∧
    w.toNat = (s.mem.read s.pc.toNat).toNat * 256 + (s.mem.read (s.pc.toNat + 1)).toNat

/-- Derived, from R80 to R84: when the word at PC decodes to an instruction, the cycle is the execute
stage of that instruction, begun with status `Ok`, and then the tick unless it halted the engine. -/
def Obligations.StepExecutesDecodedInstruction : Prop :=
  ∀ (s : State) (i : Instr), CanFetch s → decode (wordAtPc s) = .ok i →
    ∃ t, exec i { s with status := some .ok } = .next t ∧
      step s = .next (if t.run = .running then t.tick else t)

/-- Derived, from R81 and R172 (the recorded value is decision D15, what the raise leaves is D3, log
entry 1): a cycle whose fetch leaves the memory raises `MemoryFault` and does nothing else. -/
def Obligations.FetchOutsideMemoryFaults : Prop :=
  ∀ s : State, s.run = .running → 0xFFF ≤ s.pc.toNat →
    ∃ t, step s = .next t ∧ RaisedOver (.memoryFault (max s.pc.toNat 4096)) s t

/-- Derived, from R185 and R186 (decision D17): the tick takes one from each timer that is above 0, leaves a timer at 0, and answers 1 exactly
when ST was 1; it touches nothing else. -/
def Obligations.TickCountsDownAndStops : Prop :=
  ∀ s : State, s.tick.dt.toNat = s.dt.toNat - 1 ∧ s.tick.st.toNat = s.st.toNat - 1 ∧
    s.tick.beep = some (decide (s.st.toNat = 1)) ∧ UnchangedBut [.dt, .st, .beep] s s.tick

/-- Derived, from R221, R84 and R185: a timer that a cycle writes is decremented by the tick of the same
cycle, and `FX18` with VX = 1 beeps at once. -/
def Obligations.TimerWriteTicksInItsCycle : Prop :=
  ∀ (s : State) (x : Reg), CanFetch s →
    (decode (wordAtPc s) = .ok (.ldDtVx x) →
      ∃ t, step s = .next t ∧ t.dt.toNat = (s.readV x).toNat - 1 ∧ t.st.toNat = s.st.toNat - 1) ∧
    (decode (wordAtPc s) = .ok (.ldStVx x) →
      ∃ t, step s = .next t ∧ t.st.toNat = (s.readV x).toNat - 1 ∧ t.dt.toNat = s.dt.toNat - 1 ∧
        t.beep = some (decide ((s.readV x).toNat = 1)))

/-- Derived, from R186 (decision D17, log entry 26): a cycle that beeps started running and ended with ST
at 0, and its tick found ST at 1: either ST was 1 when the cycle began and the cycle was no `FX18`, or
it executed `FX18` with VX = 1. So an `FX18` that writes 0 over a running ST never beeps. -/
def Obligations.BeepOnlyOnTickFromOneToZero : Prop :=
  ∀ s t : State, step s = .next t → t.beep = some true →
    s.run = .running ∧ t.run = .running ∧ t.st = 0#8 ∧
      ((s.st = 1#8 ∧ ∀ x, decode (wordAtPc s) ≠ .ok (.ldStVx x)) ∨
        ∃ x, decode (wordAtPc s) = .ok (.ldStVx x) ∧ s.readV x = 1#8)

/-- Derived, from R183 and R85: a cycle says in its status that it waited for a key, met an undefined
word or faulted, or its status is `Ok` and it did what a defined instruction does: the engine runs on,
the word at PC decodes to an instruction other than the reserved slot, and the state is what that
instruction leaves, ticked. That the reserved slot is no defined instruction is decision D5 (log entry
7). -/
def Obligations.NoFailureIsSilent : Prop :=
  ∀ s t : State, step s = .next t →
    (t.status = some .awaitingKey ∨ (∃ w, t.status = some (.decodeError w)) ∨
      ∃ f, t.status = some (.fault f)) ∨
    (t.status = some .ok ∧ s.run = .running ∧ t.run = .running ∧
      ∃ i, decode (wordAtPc s) = .ok i ∧ (∀ nnn, i ≠ .sys nnn) ∧
        ∃ u, exec i { s with status := some .ok } = .next u ∧ u.run = .running ∧ t = u.tick)

/-- Derived, from R80, R86 and R165: a cycle always answers a next state; the model never stops. -/
def Obligations.StepAlwaysAnswersNextState : Prop :=
  ∀ s : State, ∃ t, step s = .next t ∧ t.status ≠ none ∧ t.beep ≠ none

/-! ## Faults (60_exceptions.md) -/

/-- Derived, from R179 and R180 (decision D3, log entry 1): whichever instruction or fetch raises it, a
fatal fault leaves the whole state of the start of the cycle but `RUN` and the outputs, and no timer
ticks. -/
def Obligations.FatalFaultsArePrecise : Prop :=
  ∀ (s t : State) (f : EngineFault), s.run = .running → step s = .next t → t.run = .halted f →
    RaisedOver f s t

/-- Derived, from R86 and R182 (decision D3): any number of cycles on a halted engine change nothing but
the outputs, which report the same fault each time. -/
def Obligations.HaltedEngineStaysHalted : Prop :=
  ∀ (s : State) (f : EngineFault) (n : Nat), s.run = .halted f →
    ∃ t, core.run (n + 1) s = .next t ∧ t.status = some (.fault f) ∧ t.beep = some false ∧
      UnchangedBut [.status, .beep] s t

/-- Derived, from R182 (decision D3): of all that the host can do, only `initialize` takes the engine out
of the halted state, and it always does. -/
def Obligations.OnlyReinitializeEndsHalt : Prop :=
  ∀ (x y : Session) (a : HostAct) (f : EngineFault), x.machine.run = .halted f → x.act a = some y →
    (y.machine.run = .halted f ∧ a ≠ .reinitialize) ∨ (y.machine.run = .running ∧ a = .reinitialize)

/-! ## Whole-machine rules -/

/-- Derived, from R12, R17 to R24, R45 and R184: an instruction writes the fields that the spec gives it
and no other, unless it raises a fatal fault over the state. -/
def Obligations.InstructionsWriteOnlyTheirFields : Prop :=
  ∀ (i : Instr) (s t : State), exec i s = .next t →
    UnchangedBut (.pc :: mayWrite i) s t ∨ ∃ f, RaisedOver f s t

/-- Derived, from R10 and R11: a general register changes only where an instruction names it as its
destination, and VF besides only by the seven instructions that set the flag. -/
def Obligations.RegistersChangeOnlyAsDestinations : Prop :=
  ∀ (i : Instr) (s t : State) (r : Reg), exec i s = .next t → mayWriteReg i r = false →
    t.readV r = s.readV r

/-- Derived, from R18: no instruction reads ST. Two runs of a cycle that differ only in ST differ after it
in nothing but ST and the beep. -/
def Obligations.SoundTimerIsNeverRead : Prop :=
  ∀ (s t u : State) (b : Byte), step s = .next t → step { s with st := b } = .next u →
    UnchangedBut [.st, .beep] t u

/-- Derived, from R23 and R26: no instruction reads `REDRAW`, and no cycle reads the outputs of the one
before. Two runs of a cycle that differ only in these differ after it in nothing but `REDRAW`. -/
def Obligations.OutputsAreNeverRead : Prop :=
  ∀ (s t u : State) (redraw : Bool) (status : Option Status) (beep : Option Bool), step s = .next t →
    step { s with redraw := redraw, status := status, beep := beep } = .next u →
    UnchangedBut [.redraw] t u

/-- Derived, from R19: stack entries at or above SP are dead. Two runs of a cycle that differ only in
them differ after it only in dead entries. -/
def Obligations.DeadStackEntriesAreNeverRead : Prop :=
  ∀ (s t u : State) (stack : Vector Word 16),
    (∀ k : Fin 16, k.val < s.sp.val → stack[k.val] = s.stack[k.val]) → step s = .next t →
    step { s with stack := stack } = .next u →
    UnchangedBut [.stack] t u ∧ ∀ k : Fin 16, k.val < t.sp.val → u.stack[k.val] = t.stack[k.val]

/-- Derived, from R24, R29 and R158: only `EX9E`, `EXA1` and `FX0A` read the keypad, and none writes
it. Every instruction leaves every key as it was, and any but these three does the same whatever keys
are down. -/
def Obligations.OnlyKeyInstructionsReadKeypad : Prop :=
  (∀ (i : Instr) (s : State), ∃ t, exec i s = .next t ∧ ∀ k, t.keyDown k = s.keyDown k) ∧
  ∀ (i : Instr) (s : State) (keys : Vector Bool 16),
    (∀ x, i ≠ .skp x ∧ i ≠ .sknp x ∧ i ≠ .ldVxK x) →
    ∃ t, exec i s = .next t ∧ exec i { s with keys := keys } = .next { t with keys := keys }

/-- Derived, from R16: every cycle keeps PC at 0x10FE or below, and every held return address at the
address of a word that was fetched. -/
def Obligations.StepKeepsPcBounded : Prop :=
  ∀ s t : State, PcBounded s → step s = .next t → PcBounded t

/-- Derived, from R16 and R30: PC and the held return addresses are within their bounds right after reset,
and memory is in its canonical form. That form is the model's own choice of representation (log entry
9), which no rule gives. -/
def Obligations.ResetMeetsInvariants : Prop := PcBounded State.reset ∧ MemCanonical State.reset

/-- Derived, from R21, R42 and R45: every cycle keeps memory in its canonical form (the model's own,
log entry 9), so that no cell lies outside the 4096 bytes. -/
def Obligations.StepKeepsMemoryCanonical : Prop :=
  ∀ s t : State, MemCanonical s → step s = .next t → MemCanonical t

/-- Derived, from R93 (decision D21): a finished program stays finished, and a cycle of it changes only
the timers and the outputs. -/
def Obligations.FinishedProgramStaysFinished : Prop :=
  ∀ s : State, Finished s → ∃ t, step s = .next t ∧ Finished t ∧ t.dt.toNat = s.dt.toNat - 1 ∧
    t.st.toNat = s.st.toNat - 1 ∧ t.status = some .ok ∧ UnchangedBut [.dt, .st, .status, .beep] s t

/-- Derived, from R52: a byte pair that `FX55` stores is the word that a fetch at its address gives. -/
def Obligations.StoreIsVisibleToNextFetch : Prop :=
  ∀ (x : Reg) (s : State), MemCanonical s → 1#4 ≤ x → s.i.toNat + (x.toNat + 1) ≤ 4096 →
    ∃ t, exec (.storeRegs x) s = .next t ∧
      fetch { t with pc := s.i } = .ok (wordOfBytes (s.readV 0#4) (s.readV 1#4))

/-! ## Encoding (30_encoding.md) -/

/-- Derived, from R60 to R65: decoding the word of a well-formed instruction gives it back, with every
operand. -/
def Obligations.DecodeInvertsEncode : Prop :=
  ∀ i : Instr, i.wellFormed = true → decode (encode i) = .ok i ∧
    ∀ rest, decodeBytes (encodeBytes i ++ rest) = .ok (i, rest)

/-- Derived, from R60 to R66: a word that decodes has one meaning: its instruction is well-formed and
encodes to that very word. -/
def Obligations.EncodeInvertsDecode : Prop :=
  ∀ (w : Word) (i : Instr), decode w = .ok i → i.wellFormed = true ∧ encode i = w

/-- Derived, from R65 and R69 (decision D6, log entry 8), and for the reserved slot R166 (decision D5, log
entry 7): a word is the instruction of a row exactly when it matches the row under the row's mask. The 34
defined rows are pairwise disjoint, a word decodes to a defined instruction exactly when one of them
covers it, and then the row is that instruction's; the reserved slot takes the words of class 0 that they
leave. -/
def Obligations.DecoderFollowsOpcodeMap : Prop :=
  (∀ w : Word, ∀ p ∈ definedRows, ∀ q ∈ definedRows, p.covers w = true → q.covers w = true → p = q) ∧
  (∀ (w : Word) (i : Instr), decode w = .ok i → (opcodeRow i).covers w = true) ∧
  (∀ w : Word, (∃ i, decode w = .ok i ∧ ∀ nnn, i ≠ .sys nnn) ↔ ∃ p ∈ definedRows, p.covers w = true) ∧
  (∀ w : Word, (∃ nnn, decode w = .ok (.sys nnn)) ↔
    (w &&& 0xF000#16 = 0#16 ∧ ∀ p ∈ definedRows, p.covers w = false))

/-- Derived, from 95_test_vectors.md (W2 and Decode): some words by their numbers. -/
def Obligations.SampleWordsDecodeAsTheSpecSays : Prop :=
  DecodesTo 0xA2F0 (.ldI 0x2F0#12) ∧ DecodesTo 0x8AB4 (.addReg 0xA#4 0xB#4) ∧
  DecodesTo 0x8ABE (.shl 0xA#4 0xB#4) ∧ DecodesTo 0xEA9E (.skp 0xA#4) ∧ DecodesTo 0xEAA1 (.sknp 0xA#4) ∧
  DecodesTo 0xFA65 (.loadRegs 0xA#4) ∧ DecodesTo 0xD000 (.drw 0#4 0#4 0#4) ∧ DecodesTo 0x1234 (.jp 0x234#12) ∧
  decode 0x8AB8#16 = .error (.undefinedWord 0x8AB8#16) ∧ decode 0xEA9F#16 = .error (.undefinedWord 0xEA9F#16) ∧
  decode 0xFA66#16 = .error (.undefinedWord 0xFA66#16) ∧ decode 0x5AB1#16 = .error (.undefinedWord 0x5AB1#16)

/-! ## Reset, the loader and the host (70_reset_and_hazards.md, 20_memory.md) -/

/-- Derived, from R30 and R210: what `initialize` leaves, from any state. `FONT_BASE` is decision D13,
`RUN` D3, `KEY` D18; that the outputs are none before the first cycle is R26. -/
def Obligations.ReinitializeLeavesResetValues : Prop :=
  ∀ s : State, (∀ r, s.reinitialize.readV r = 0#8) ∧ s.reinitialize.i = 0#16 ∧
    s.reinitialize.pc = 0x200#16 ∧ s.reinitialize.dt = 0#8 ∧ s.reinitialize.st = 0#8 ∧
    (∀ k : Fin 16, s.reinitialize.stack[k.val] = 0#16) ∧ s.reinitialize.sp.val = 0 ∧
    (∀ k : Fin 80, s.reinitialize.mem.read k.val = Config.fontset[k.val]) ∧
    (∀ a, 80 ≤ a → s.reinitialize.mem.read a = 0#8) ∧
    (∀ x y, pixel s.reinitialize.fb x y = false) ∧ s.reinitialize.redraw = true ∧
    s.reinitialize.run = .running ∧ s.reinitialize.keys = s.keys ∧
    s.reinitialize.status = none ∧ s.reinitialize.beep = none

/-- Derived, from R211 and R24: `initialize` is idempotent, and what it leaves depends on no state but `KEY` (the model's own
count of draws, log entry 3, is no state of the machine and is set aside). -/
def Obligations.ReinitializeIsIdempotent : Prop :=
  (∀ s : State, s.reinitialize.reinitialize = s.reinitialize) ∧
  ∀ s t : State, s.keys = t.keys →
    { s.reinitialize with draws := 0 } = { t.reinitialize with draws := 0 }

/-- Derived, from R55 and R175 (that a failing load writes nothing is decision D22, log entry 19): an image
of at most 3584 bytes lands verbatim at 0x200 and nothing else changes; a longer one fails. Memory is
taken in its canonical form, which every step keeps. -/
def Obligations.LoaderCopiesImageVerbatim : Prop :=
  ∀ (s : State) (rom : List Byte), MemCanonical s →
    (rom.length ≤ 3584 → ∃ t, s.loadRom rom = .ok t ∧
      (∀ k : Fin rom.length, t.mem.read (0x200 + k.val) = rom[k]) ∧
      MemUnchangedOutside 0x200 rom.length s t ∧ UnchangedBut [.mem] s t) ∧
    (3584 < rom.length → s.loadRom rom = .error .romTooLarge)

/-- Derived, from R213, R46 and R40: after `initialize` and a load, the first cycle fetches the first two
bytes of the image. -/
def Obligations.FirstCycleFetchesImageStart : Prop :=
  ∀ (s : State) (b0 b1 : Byte) (rest : List Byte), rest.length ≤ 3582 →
    ∃ t, s.reinitialize.loadRom (b0 :: b1 :: rest) = .ok t ∧ t.run = .running ∧
      fetch t = .ok (wordOfBytes b0 b1)
end

