-- ==== Sys2Proof/Laws/Decode.lean ====
section
/-! SUPPORT. The fields of a word put together from fields, and a word put together from its fields
(30_encoding.md R61, R62). -/

namespace Sys2Proof

theorem fields_formatFA (c : Nibble) (nnn : Addr12) :
    fieldC (formatFA c nnn) = c ∧ fieldNNN (formatFA c nnn) = nnn := by
  unfold fieldC fieldNNN formatFA
  refine ⟨?_, ?_⟩ <;> apply BitVec.eq_of_getLsbD_eq <;> intro i hi <;>
    simp only [BitVec.getLsbD_extractLsb', BitVec.getLsbD_cast, BitVec.getLsbD_append] <;> simp [hi]

theorem fields_formatFXK (c : Nibble) (x : Reg) (nn : Byte) :
    fieldC (formatFXK c x nn) = c ∧ fieldX (formatFXK c x nn) = x ∧ fieldNN (formatFXK c x nn) = nn := by
  unfold fieldC fieldX fieldNN formatFXK
  refine ⟨?_, ?_, ?_⟩ <;> apply BitVec.eq_of_getLsbD_eq <;> intro i hi <;>
    simp only [BitVec.getLsbD_extractLsb', BitVec.getLsbD_cast, BitVec.getLsbD_append] <;>
    interval_cases i <;> simp

theorem fields_formatFXY (c : Nibble) (x y : Reg) (n : Nibble) :
    fieldC (formatFXY c x y n) = c ∧ fieldX (formatFXY c x y n) = x ∧
      fieldY (formatFXY c x y n) = y ∧ fieldN (formatFXY c x y n) = n := by
  unfold fieldC fieldX fieldY fieldN formatFXY
  refine ⟨?_, ?_, ?_, ?_⟩ <;> apply BitVec.eq_of_getLsbD_eq <;> intro i hi <;>
    simp only [BitVec.getLsbD_extractLsb', BitVec.getLsbD_cast, BitVec.getLsbD_append] <;>
    interval_cases i <;> simp

theorem formats_of_fields (w : Word) :
    formatFA (fieldC w) (fieldNNN w) = w ∧ formatFXK (fieldC w) (fieldX w) (fieldNN w) = w ∧
      formatFXY (fieldC w) (fieldX w) (fieldY w) (fieldN w) = w := by
  unfold fieldC fieldX fieldY fieldN fieldNN fieldNNN formatFA formatFXK formatFXY
  refine ⟨?_, ?_, ?_⟩ <;> apply BitVec.eq_of_getLsbD_eq <;> intro i hi <;>
    simp only [BitVec.getLsbD_extractLsb', BitVec.getLsbD_cast, BitVec.getLsbD_append] <;>
    interval_cases i <;> simp

theorem toNat_formatFA (c : Nibble) (nnn : Addr12) :
    (formatFA c nnn).toNat = c.toNat * 0x1000 + nnn.toNat := by
  have h := nnn.isLt
  simp only [formatFA, BitVec.toNat_cast, BitVec.toNat_append]
  rw [← Nat.shiftLeft_add_eq_or_of_lt h, Nat.shiftLeft_eq]

theorem toNat_formatFXK (c : Nibble) (x : Reg) (nn : Byte) :
    (formatFXK c x nn).toNat = c.toNat * 0x1000 + x.toNat * 0x100 + nn.toNat := by
  have h1 := x.isLt
  have h2 := nn.isLt
  simp only [formatFXK, BitVec.toNat_cast, BitVec.toNat_append]
  rw [← Nat.shiftLeft_add_eq_or_of_lt h1, ← Nat.shiftLeft_add_eq_or_of_lt h2, Nat.shiftLeft_eq,
    Nat.shiftLeft_eq]
  omega

theorem toNat_formatFXY (c : Nibble) (x y : Reg) (n : Nibble) :
    (formatFXY c x y n).toNat = c.toNat * 0x1000 + x.toNat * 0x100 + y.toNat * 0x10 + n.toNat := by
  have h1 := x.isLt
  have h2 := y.isLt
  have h3 := n.isLt
  simp only [formatFXY, BitVec.toNat_cast, BitVec.toNat_append]
  rw [← Nat.shiftLeft_add_eq_or_of_lt h1, ← Nat.shiftLeft_add_eq_or_of_lt h2,
    ← Nat.shiftLeft_add_eq_or_of_lt h3, Nat.shiftLeft_eq, Nat.shiftLeft_eq, Nat.shiftLeft_eq]
  omega

/-- A word by its two bytes (R40). -/
theorem toNat_wordOfBytes (first second : Byte) :
    (wordOfBytes first second).toNat = first.toNat * 0x100 + second.toNat := by
  have h := second.isLt
  simp only [wordOfBytes, BitVec.toNat_cast, BitVec.toNat_append]
  rw [← Nat.shiftLeft_add_eq_or_of_lt h, Nat.shiftLeft_eq]

end Sys2Proof
end

