-- ==== Sys2Proof/Laws/Display.lean ====
section
/-! SUPPORT. The laws of the framebuffer and of the blitter (45_sprite.md R145 to R147): the blitter's
loop toggles each pixel that the sprite covers exactly once, and its flag says whether one of them was
set before. -/

namespace Sys2Proof.Machine

@[simp] theorem pixel_clear (x : Fin 64) (y : Fin 32) : pixel clearFramebuffer x y = false := by
  simp [pixel, clearFramebuffer]

/-- A toggle flips its own pixel and no other. -/
theorem pixel_togglePixel (fb : Framebuffer) (x x' : Fin 64) (y y' : Fin 32) :
    pixel (togglePixel fb x y) x' y' = (pixel fb x' y' ^^ decide (x = x' ∧ y = y')) := by
  unfold pixel togglePixel
  by_cases hy : y = y'
  · subst hy
    simp [Fin.ext_iff, x'.isLt, eq_comm]
  · have h : y.val ≠ y'.val := fun e => hy (Fin.ext e)
    simp [h, hy]

/-- Two framebuffers with the same pixels are the same. -/
theorem framebuffer_ext (fb fb' : Framebuffer) (h : ∀ x y, pixel fb x y = pixel fb' x y) : fb = fb' := by
  apply Vector.ext
  intro j hj
  apply BitVec.eq_of_getLsbD_eq
  intro k hk
  exact h ⟨k, hk⟩ ⟨j, hj⟩

/-- What the blitter does at one pixel that a 1 bit lands on. -/
def hitPixel (acc : Framebuffer × Bool) (p : Fin 64 × Fin 32) : Framebuffer × Bool :=
  (togglePixel acc.1 p.1 p.2, acc.2 || pixel acc.1 p.1 p.2)

/-- Hitting distinct pixels flips each of them once. -/
theorem pixel_foldl_hitPixel : ∀ (ps : List (Fin 64 × Fin 32)) (acc : Framebuffer × Bool), ps.Nodup →
    ∀ x y, pixel (ps.foldl hitPixel acc).1 x y = (pixel acc.1 x y ^^ decide ((x, y) ∈ ps)) := by
  intro ps
  induction ps with
  | nil => intro acc _ x y; simp
  | cons p ps ih =>
    intro acc hnd x y
    obtain ⟨hp, hnd⟩ := List.nodup_cons.mp hnd
    rw [List.foldl_cons, ih _ hnd]
    simp only [hitPixel, pixel_togglePixel, List.mem_cons]
    by_cases h : (x, y) = p
    · subst h; simp [hp]
    · have h' : ¬(p.1 = x ∧ p.2 = y) := fun e => h (Prod.ext e.1.symm e.2.symm)
      simp [h, h']

/-- Hitting distinct pixels reports whether one of them was set before. -/
theorem collision_foldl_hitPixel : ∀ (ps : List (Fin 64 × Fin 32)) (acc : Framebuffer × Bool), ps.Nodup →
    ((ps.foldl hitPixel acc).2 = true ↔ acc.2 = true ∨ ∃ p ∈ ps, pixel acc.1 p.1 p.2 = true) := by
  intro ps
  induction ps with
  | nil => intro acc _; simp
  | cons p ps ih =>
    intro acc hnd
    obtain ⟨hp, hnd⟩ := List.nodup_cons.mp hnd
    rw [List.foldl_cons, ih _ hnd]
    have hsame : ∀ q ∈ ps, pixel (hitPixel acc p).1 q.1 q.2 = pixel acc.1 q.1 q.2 := by
      intro q hq
      have : ¬(p.1 = q.1 ∧ p.2 = q.2) := fun e => hp (by rwa [show p = q from Prod.ext e.1 e.2])
      simp [hitPixel, pixel_togglePixel, this]
    constructor
    · rintro (h | ⟨q, hq, hpix⟩)
      · simp only [hitPixel, Bool.or_eq_true] at h
        rcases h with h | h
        · exact .inl h
        · exact .inr ⟨p, List.mem_cons_self, h⟩
      · exact .inr ⟨q, List.mem_cons_of_mem _ hq, (hsame q hq) ▸ hpix⟩
    · rintro (h | ⟨q, hq, hpix⟩)
      · exact .inl (by simp [hitPixel, h])
      · rcases List.mem_cons.mp hq with rfl | hq
        · exact .inl (by simp [hitPixel, hpix])
        · exact .inr ⟨q, hq, (hsame q hq).symm ▸ hpix⟩

/-- The pixels that the 1 bits of one sprite row land on. -/
def rowHits (vx vy : Byte) (r : Nat) (row : Byte) : List (Fin 64 × Fin 32) :=
  ((List.range 8).filter (spriteBit row)).map fun c => (screenX vx c, screenY vy r)

/-- The pixels that the 1 bits of the rows from row `r` on land on. -/
def spriteHits (vx vy : Byte) : Nat → List Byte → List (Fin 64 × Fin 32)
  | _, [] => []
  | r, row :: rows => rowHits vx vy r row ++ spriteHits vx vy (r + 1) rows

theorem blitRow_eq_foldl (vx vy : Byte) (r : Nat) (row : Byte) (acc : Framebuffer × Bool) :
    blitRow vx vy r row acc = (rowHits vx vy r row).foldl hitPixel acc := by
  unfold blitRow rowHits
  rw [List.foldl_map, List.foldl_filter]
  rfl

theorem blitRows_eq_foldl (vx vy : Byte) : ∀ (rows : List Byte) (r : Nat) (acc : Framebuffer × Bool),
    blitRows vx vy r rows acc = (spriteHits vx vy r rows).foldl hitPixel acc := by
  intro rows
  induction rows with
  | nil => intro r acc; rfl
  | cons row rows ih =>
    intro r acc
    simp only [blitRows, spriteHits, List.foldl_append, ih, blitRow_eq_foldl]

theorem mem_rowHits (vx vy : Byte) (r : Nat) (row : Byte) (p : Fin 64 × Fin 32) :
    p ∈ rowHits vx vy r row ↔ ∃ c < 8, spriteBit row c = true ∧ p = (screenX vx c, screenY vy r) := by
  simp only [rowHits, List.mem_map, List.mem_filter, List.mem_range]
  constructor
  · rintro ⟨c, ⟨h1, h2⟩, h3⟩; exact ⟨c, h1, h2, h3.symm⟩
  · rintro ⟨c, h1, h2, h3⟩; exact ⟨c, ⟨h1, h2⟩, h3.symm⟩

theorem mem_spriteHits (vx vy : Byte) : ∀ (rows : List Byte) (r : Nat) (p : Fin 64 × Fin 32),
    p ∈ spriteHits vx vy r rows ↔ ∃ (j : Fin rows.length) (c : Fin 8),
      spriteBit rows[j] c.val = true ∧ screenX vx c.val = p.1 ∧ screenY vy (r + j.val) = p.2 := by
  intro rows
  induction rows with
  | nil => intro r p; simp [spriteHits]
  | cons row rows ih =>
    intro r p
    rw [spriteHits, List.mem_append, mem_rowHits, ih]
    constructor
    · rintro (⟨c, hc, hb, rfl⟩ | ⟨j, c, hb, hx, hy⟩)
      · exact ⟨⟨0, by simp⟩, ⟨c, hc⟩, by simpa using hb, rfl, rfl⟩
      · refine ⟨⟨j.val + 1, by simp⟩, c, by simpa using hb, hx, ?_⟩
        rw [← hy]
        congr 1
        show r + (j.val + 1) = r + 1 + j.val
        omega
    · rintro ⟨⟨j, hj⟩, c, hb, hx, hy⟩
      cases j with
      | zero => exact .inl ⟨c.val, c.isLt, by simpa using hb, Prod.ext hx.symm hy.symm⟩
      | succ j =>
        refine .inr ⟨⟨j, by simpa using hj⟩, c, by simpa using hb, hx, ?_⟩
        rw [← hy]
        congr 1
        show r + 1 + j = r + (j + 1)
        omega

theorem nodup_rowHits (vx vy : Byte) (r : Nat) (row : Byte) : (rowHits vx vy r row).Nodup := by
  unfold rowHits
  refine List.Nodup.map_on ?_ (List.nodup_range.filter _)
  intro c hc c' hc' h
  simp only [List.mem_filter, List.mem_range] at hc hc'
  have h := congrArg (fun p => p.1.val) h
  simp only [screenX] at h
  omega

/-- No two bits of one sprite land on the same pixel (R145). -/
theorem nodup_spriteHits (vx vy : Byte) : ∀ (rows : List Byte) (r : Nat), rows.length ≤ 32 →
    (spriteHits vx vy r rows).Nodup := by
  intro rows
  induction rows with
  | nil => intro r _; exact List.nodup_nil
  | cons row rows ih =>
    intro r hlen
    simp only [List.length_cons] at hlen
    rw [spriteHits, List.nodup_append]
    refine ⟨nodup_rowHits vx vy r row, ih _ (by omega), ?_⟩
    intro p hp q hq e
    subst e
    obtain ⟨c, _, _, rfl⟩ := (mem_rowHits ..).mp hp
    obtain ⟨j, _, _, _, hy⟩ := (mem_spriteHits ..).mp hq
    have := congrArg Fin.val hy
    have hj := j.isLt
    simp only [screenY] at this
    omega

/-- The pixels hit by the rows are the ones the sprite covers. -/
theorem mem_spriteHits_iff_covers (vx vy : Byte) (rows : List Byte) (row : Nat → Byte)
    (hrow : ∀ (r : Nat) (h : r < rows.length), rows[r] = row r) (x : Fin 64) (y : Fin 32) :
    (x, y) ∈ spriteHits vx vy 0 rows ↔ SpriteCovers row rows.length vx vy x y := by
  rw [mem_spriteHits]
  refine exists_congr fun r => exists_congr fun c => ?_
  have h : rows[r] = row r.val := hrow r.val r.isLt
  rw [h, Nat.zero_add, Fin.ext_iff, Fin.ext_iff]
  rfl

/-- The framebuffer after a blit of at most 32 rows: each pixel the sprite covers is flipped, and every
other one is as it was (R145, R146). -/
theorem pixel_blit (fb : Framebuffer) (vx vy : Byte) (rows : List Byte) (row : Nat → Byte)
    (hlen : rows.length ≤ 32) (hrow : ∀ (r : Nat) (h : r < rows.length), rows[r] = row r)
    (x : Fin 64) (y : Fin 32) : pixel (blit fb vx vy rows).1 x y =
      (pixel fb x y ^^ decide (SpriteCovers row rows.length vx vy x y)) := by
  unfold blit
  rw [blitRows_eq_foldl, pixel_foldl_hitPixel _ _ (nodup_spriteHits vx vy rows 0 hlen)]
  exact congrArg _ (decide_eq_decide.mpr (mem_spriteHits_iff_covers vx vy rows row hrow x y))

/-- The flag of a blit of at most 32 rows: whether a pixel the sprite covers was set before (R147). -/
theorem collision_blit (fb : Framebuffer) (vx vy : Byte) (rows : List Byte) (row : Nat → Byte)
    (hlen : rows.length ≤ 32) (hrow : ∀ (r : Nat) (h : r < rows.length), rows[r] = row r) :
    (blit fb vx vy rows).2 = true ↔
      ∃ x y, SpriteCovers row rows.length vx vy x y ∧ pixel fb x y = true := by
  unfold blit
  rw [blitRows_eq_foldl, collision_foldl_hitPixel _ _ (nodup_spriteHits vx vy rows 0 hlen)]
  simp only [Prod.exists, Bool.false_eq_true, false_or,
    mem_spriteHits_iff_covers vx vy rows row hrow]

end Sys2Proof.Machine
end

