-- ==== Sys2Proof/Laws/Memory.lean ====
section
/-! SUPPORT. The laws of memory: a read after a write, the canonical form kept by every write, and one
specification each for the bounds check, the load and the store of 20_memory.md R42 and R45. -/

namespace Sys2Proof.Machine

theorem Memory.read_consCell (m : Memory) (a a' : Nat) (b : Byte) (hm : m.read a = Memory.background a) :
    (Memory.consCell a b m).read a' = if a' = a then b else m.read a' := by
  unfold Memory.consCell
  by_cases hb : b = Memory.background a
  · by_cases h : a' = a
    · simp [hb, h, hm]
    · simp [hb, h]
  · by_cases h : a' = a
    · simp [hb, h, Memory.read]
    · simp [hb, h, Memory.read, Ne.symm h]

/-- Below its first cell a memory in canonical form reads as unlisted. -/
theorem Memory.read_of_wfFrom_lt : ∀ (m : Memory) (lo a : Nat), Memory.wfFrom lo m = true → a < lo →
    m.read a = Memory.background a := by
  intro m
  induction m with
  | nil => intro lo a _ _; rfl
  | cons c rest ih =>
    obtain ⟨a', b⟩ := c
    intro lo a h hlt
    simp only [Memory.wfFrom, Bool.and_eq_true, decide_eq_true_eq] at h
    have hne : a' ≠ a := by omega
    simp only [Memory.read, if_neg hne]
    exact ih _ _ h.2 (by omega)

theorem Memory.wfFrom_mono : ∀ (m : Memory) (lo lo' : Nat), lo' ≤ lo → Memory.wfFrom lo m = true →
    Memory.wfFrom lo' m = true := by
  intro m
  cases m with
  | nil => intro _ _ _ _; rfl
  | cons c rest =>
    obtain ⟨a, b⟩ := c
    intro lo lo' hle h
    simp only [Memory.wfFrom, Bool.and_eq_true, decide_eq_true_eq] at h ⊢
    exact ⟨⟨⟨by omega, h.1.1.2⟩, h.1.2⟩, h.2⟩

theorem Memory.read_write_from : ∀ (m : Memory) (lo a : Nat) (b : Byte) (a' : Nat),
    Memory.wfFrom lo m = true → (m.write a b).read a' = if a' = a then b else m.read a' := by
  intro m
  induction m with
  | nil =>
    intro lo a b a' _
    exact Memory.read_consCell [] a a' b rfl
  | cons c rest ih =>
    obtain ⟨a₀, b₀⟩ := c
    intro lo a b a' h
    have hc := h
    simp only [Memory.wfFrom, Bool.and_eq_true, decide_eq_true_eq] at h
    unfold Memory.write
    split
    · rename_i hlt
      apply Memory.read_consCell
      have hne : a₀ ≠ a := by omega
      simp only [Memory.read, if_neg hne]
      exact Memory.read_of_wfFrom_lt rest _ a h.2 (by omega)
    · split
      · rename_i _ he
        subst he
        rw [Memory.read_consCell _ _ _ _ (Memory.read_of_wfFrom_lt rest _ a h.2 (by omega))]
        by_cases h' : a' = a
        · simp [h']
        · simp [h', Memory.read, Ne.symm h']
      · rename_i hlt hne
        simp only [Memory.read, ih _ _ _ _ h.2]
        by_cases h' : a₀ = a'
        · simp [h', show a' ≠ a from by omega]
        · simp [h']

/-- A read after a write to the same address gives the byte written, and every other address reads as
before. -/
theorem Memory.read_write (m : Memory) (a a' : Nat) (b : Byte) (h : m.wf = true) :
    (m.write a b).read a' = if a' = a then b else m.read a' :=
  Memory.read_write_from m 0 a b a' h

theorem Memory.wfFrom_consCell (m : Memory) (lo a : Nat) (b : Byte) (hlo : lo ≤ a) (ha : a < Config.memSize)
    (hm : Memory.wfFrom (a + 1) m = true) : Memory.wfFrom lo (Memory.consCell a b m) = true := by
  unfold Memory.consCell
  by_cases hb : b = Memory.background a
  · rw [if_pos hb]
    exact Memory.wfFrom_mono m _ _ (by omega) hm
  · rw [if_neg hb]
    simp only [Memory.wfFrom, Bool.and_eq_true, decide_eq_true_eq]
    exact ⟨⟨⟨hlo, ha⟩, hb⟩, hm⟩

theorem Memory.wfFrom_write : ∀ (m : Memory) (lo a : Nat) (b : Byte), Memory.wfFrom lo m = true →
    lo ≤ a → a < Config.memSize → Memory.wfFrom lo (m.write a b) = true := by
  intro m
  induction m with
  | nil => intro lo a b _ hlo ha; exact Memory.wfFrom_consCell [] lo a b hlo ha rfl
  | cons c rest ih =>
    obtain ⟨a₀, b₀⟩ := c
    intro lo a b h hlo ha
    have h' := h
    simp only [Memory.wfFrom, Bool.and_eq_true, decide_eq_true_eq] at h'
    unfold Memory.write
    split
    · rename_i hlt
      apply Memory.wfFrom_consCell _ _ _ _ hlo ha
      simp only [Memory.wfFrom, Bool.and_eq_true, decide_eq_true_eq]
      exact ⟨⟨⟨by omega, h'.1.1.2⟩, h'.1.2⟩, h'.2⟩
    · split
      · rename_i _ he
        subst he
        exact Memory.wfFrom_consCell _ _ _ _ hlo ha h'.2
      · rename_i hlt hne
        simp only [Memory.wfFrom, Bool.and_eq_true, decide_eq_true_eq]
        exact ⟨h'.1, ih _ _ _ h'.2 (by omega) ha⟩

/-- A write inside the memory keeps the canonical form. -/
theorem Memory.wf_write (m : Memory) (a : Nat) (b : Byte) (h : m.wf = true) (ha : a < Config.memSize) :
    (m.write a b).wf = true :=
  Memory.wfFrom_write m 0 a b h (Nat.zero_le a) ha

/-- Writing bytes inside the memory keeps the canonical form. -/
theorem Memory.wf_writeList : ∀ (bs : List Byte) (m : Memory) (base : Nat), m.wf = true →
    base + bs.length ≤ Config.memSize → (m.writeList base bs).wf = true := by
  intro bs
  induction bs with
  | nil => intro m base h _; exact h
  | cons b bs ih =>
    intro m base h hb
    simp only [List.length_cons] at hb
    exact ih _ _ (Memory.wf_write m base b h (by omega)) (by omega)

/-- What an address reads as after bytes are written from `base`: the byte written there, or what it
read as before. -/
theorem Memory.read_writeList : ∀ (bs : List Byte) (m : Memory) (base a : Nat), m.wf = true →
    base + bs.length ≤ Config.memSize →
    (m.writeList base bs).read a =
      if h : base ≤ a ∧ a - base < bs.length then bs[a - base]'h.2 else m.read a := by
  intro bs
  induction bs with
  | nil => intro m base a _ _; simp [Memory.writeList]
  | cons b bs ih =>
    intro m base a hm hb
    simp only [List.length_cons] at hb
    unfold Memory.writeList
    rw [ih _ _ _ (Memory.wf_write m base b hm (by omega)) (by omega), Memory.read_write _ _ _ _ hm]
    by_cases h1 : a = base
    · subst h1; simp
    · by_cases h2 : base + 1 ≤ a ∧ a - (base + 1) < bs.length
      · have h3 : base ≤ a ∧ a - base < (b :: bs).length := by
          simp only [List.length_cons]; omega
        rw [dif_pos h2, dif_pos h3]
        have e : a - base = (a - (base + 1)) + 1 := by omega
        simp [e]
      · have h3 : ¬(base ≤ a ∧ a - base < (b :: bs).length) := by
          simp only [List.length_cons]; omega
        rw [dif_neg h2, dif_neg h3, if_neg h1]

@[simp] theorem Memory.length_readList (m : Memory) (n : Nat) : ∀ base, (m.readList base n).length = n := by
  induction n with
  | zero => intro base; rfl
  | succ n ih => intro base; simp [Memory.readList, ih]

/-- Byte `j` of the bytes read from `base` is the byte at `base + j`. -/
theorem Memory.getElem_readList (m : Memory) (n : Nat) : ∀ (base j : Nat) (h : j < (m.readList base n).length),
    (m.readList base n)[j] = m.read (base + j) := by
  induction n with
  | zero => intro base j h; simp [Memory.readList] at h
  | succ n ih =>
    intro base j h
    cases j with
    | zero => simp [Memory.readList]
    | succ j =>
      simp only [Memory.readList, List.getElem_cons_succ]
      rw [ih]
      congr 1
      omega

/-- The bounds check of a transfer (R42, R172): it passes exactly when no byte lies outside the memory,
and otherwise records the lowest byte address that does. -/
theorem checkRange_spec (n : Nat) : ∀ base, checkRange base n =
    if n = 0 ∨ base + n ≤ 4096 then .ok () else .error (.memoryFault (max base 4096)) := by
  induction n with
  | zero => intro base; simp [checkRange]
  | succ n ih =>
    intro base
    unfold checkRange checkAddress
    by_cases h : base < Config.memSize
    · have h' : base < 4096 := h
      rw [if_pos h]
      simp only [ih]
      by_cases h2 : n = 0
      · rw [if_pos (Or.inl h2), if_pos (Or.inr (by omega))]
      · by_cases h3 : base + 1 + n ≤ 4096
        · rw [if_pos (Or.inr h3), if_pos (Or.inr (by omega))]
        · rw [if_neg (by omega), if_neg (by omega)]
          congr 2
          omega
    · have h' : ¬ base < 4096 := h
      rw [if_neg h]
      simp only
      rw [if_neg (by omega)]
      congr 2
      omega

/-- A load (R42, R45): the bytes, or the lowest address outside the memory. -/
theorem Memory.load_spec (m : Memory) (base n : Nat) : m.load base n =
    if n = 0 ∨ base + n ≤ 4096 then .ok (m.readList base n) else .error (.memoryFault (max base 4096)) := by
  unfold Memory.load
  rw [checkRange_spec]
  by_cases h : n = 0 ∨ base + n ≤ 4096
  · rw [if_pos h, if_pos h]
  · rw [if_neg h, if_neg h]

/-- A store (R42, R45, R180): all the bytes, or none and the lowest address outside the memory. -/
theorem Memory.store_spec (m : Memory) (base : Nat) (bs : List Byte) : m.store base bs =
    if bs.length = 0 ∨ base + bs.length ≤ 4096 then .ok (m.writeList base bs)
    else .error (.memoryFault (max base 4096)) := by
  unfold Memory.store
  rw [checkRange_spec]
  by_cases h : bs.length = 0 ∨ base + bs.length ≤ 4096
  · rw [if_pos h, if_pos h]
  · rw [if_neg h, if_neg h]

/-- A store that answers keeps the canonical form. -/
theorem Memory.wf_store (m m' : Memory) (base : Nat) (bs : List Byte) (h : m.wf = true)
    (hs : m.store base bs = .ok m') : m'.wf = true := by
  rw [Memory.store_spec] at hs
  split at hs
  · rename_i hr
    cases hs
    rcases hr with hr | hr
    · rw [List.length_eq_zero_iff] at hr; subst hr; exact h
    · exact Memory.wf_writeList bs m base h hr
  · cases hs

end Sys2Proof.Machine
end

