-- ==== Sys2Proof/Laws/State.lean ====
section
/-! SUPPORT. One lemma for each field under each update, all true by rfl, so that no later proof unfolds
a record update; then the two register-file laws and the run of registers. -/

namespace Sys2Proof.Machine

variable (s : State)

/-! ### writeV -/

@[simp] theorem State.writeV_i (r : Reg) (b : Byte) : (s.writeV r b).i = s.i := rfl
@[simp] theorem State.writeV_pc (r : Reg) (b : Byte) : (s.writeV r b).pc = s.pc := rfl
@[simp] theorem State.writeV_dt (r : Reg) (b : Byte) : (s.writeV r b).dt = s.dt := rfl
@[simp] theorem State.writeV_st (r : Reg) (b : Byte) : (s.writeV r b).st = s.st := rfl
@[simp] theorem State.writeV_stack (r : Reg) (b : Byte) : (s.writeV r b).stack = s.stack := rfl
@[simp] theorem State.writeV_sp (r : Reg) (b : Byte) : (s.writeV r b).sp = s.sp := rfl
@[simp] theorem State.writeV_mem (r : Reg) (b : Byte) : (s.writeV r b).mem = s.mem := rfl
@[simp] theorem State.writeV_fb (r : Reg) (b : Byte) : (s.writeV r b).fb = s.fb := rfl
@[simp] theorem State.writeV_redraw (r : Reg) (b : Byte) : (s.writeV r b).redraw = s.redraw := rfl
@[simp] theorem State.writeV_keys (r : Reg) (b : Byte) : (s.writeV r b).keys = s.keys := rfl
@[simp] theorem State.writeV_run (r : Reg) (b : Byte) : (s.writeV r b).run = s.run := rfl
@[simp] theorem State.writeV_status (r : Reg) (b : Byte) : (s.writeV r b).status = s.status := rfl
@[simp] theorem State.writeV_beep (r : Reg) (b : Byte) : (s.writeV r b).beep = s.beep := rfl
@[simp] theorem State.writeV_draws (r : Reg) (b : Byte) : (s.writeV r b).draws = s.draws := rfl
@[simp] theorem State.keyDown_writeV (r : Reg) (b : Byte) (k : Nibble) : (s.writeV r b).keyDown k = s.keyDown k := rfl

/-! ### writeFlag -/

@[simp] theorem State.writeFlag_i (flag : Bool) : (s.writeFlag flag).i = s.i := rfl
@[simp] theorem State.writeFlag_pc (flag : Bool) : (s.writeFlag flag).pc = s.pc := rfl
@[simp] theorem State.writeFlag_dt (flag : Bool) : (s.writeFlag flag).dt = s.dt := rfl
@[simp] theorem State.writeFlag_st (flag : Bool) : (s.writeFlag flag).st = s.st := rfl
@[simp] theorem State.writeFlag_stack (flag : Bool) : (s.writeFlag flag).stack = s.stack := rfl
@[simp] theorem State.writeFlag_sp (flag : Bool) : (s.writeFlag flag).sp = s.sp := rfl
@[simp] theorem State.writeFlag_mem (flag : Bool) : (s.writeFlag flag).mem = s.mem := rfl
@[simp] theorem State.writeFlag_fb (flag : Bool) : (s.writeFlag flag).fb = s.fb := rfl
@[simp] theorem State.writeFlag_redraw (flag : Bool) : (s.writeFlag flag).redraw = s.redraw := rfl
@[simp] theorem State.writeFlag_keys (flag : Bool) : (s.writeFlag flag).keys = s.keys := rfl
@[simp] theorem State.writeFlag_run (flag : Bool) : (s.writeFlag flag).run = s.run := rfl
@[simp] theorem State.writeFlag_status (flag : Bool) : (s.writeFlag flag).status = s.status := rfl
@[simp] theorem State.writeFlag_beep (flag : Bool) : (s.writeFlag flag).beep = s.beep := rfl
@[simp] theorem State.writeFlag_draws (flag : Bool) : (s.writeFlag flag).draws = s.draws := rfl
@[simp] theorem State.keyDown_writeFlag (flag : Bool) (k : Nibble) : (s.writeFlag flag).keyDown k = s.keyDown k := rfl

/-! ### writeResultAndFlag -/

@[simp] theorem State.writeResultAndFlag_i (x : Reg) (b : Byte) (flag : Bool) : (s.writeResultAndFlag x b flag).i = s.i := rfl
@[simp] theorem State.writeResultAndFlag_pc (x : Reg) (b : Byte) (flag : Bool) : (s.writeResultAndFlag x b flag).pc = s.pc := rfl
@[simp] theorem State.writeResultAndFlag_dt (x : Reg) (b : Byte) (flag : Bool) : (s.writeResultAndFlag x b flag).dt = s.dt := rfl
@[simp] theorem State.writeResultAndFlag_st (x : Reg) (b : Byte) (flag : Bool) : (s.writeResultAndFlag x b flag).st = s.st := rfl
@[simp] theorem State.writeResultAndFlag_stack (x : Reg) (b : Byte) (flag : Bool) : (s.writeResultAndFlag x b flag).stack = s.stack := rfl
@[simp] theorem State.writeResultAndFlag_sp (x : Reg) (b : Byte) (flag : Bool) : (s.writeResultAndFlag x b flag).sp = s.sp := rfl
@[simp] theorem State.writeResultAndFlag_mem (x : Reg) (b : Byte) (flag : Bool) : (s.writeResultAndFlag x b flag).mem = s.mem := rfl
@[simp] theorem State.writeResultAndFlag_fb (x : Reg) (b : Byte) (flag : Bool) : (s.writeResultAndFlag x b flag).fb = s.fb := rfl
@[simp] theorem State.writeResultAndFlag_redraw (x : Reg) (b : Byte) (flag : Bool) : (s.writeResultAndFlag x b flag).redraw = s.redraw := rfl
@[simp] theorem State.writeResultAndFlag_keys (x : Reg) (b : Byte) (flag : Bool) : (s.writeResultAndFlag x b flag).keys = s.keys := rfl
@[simp] theorem State.writeResultAndFlag_run (x : Reg) (b : Byte) (flag : Bool) : (s.writeResultAndFlag x b flag).run = s.run := rfl
@[simp] theorem State.writeResultAndFlag_status (x : Reg) (b : Byte) (flag : Bool) : (s.writeResultAndFlag x b flag).status = s.status := rfl
@[simp] theorem State.writeResultAndFlag_beep (x : Reg) (b : Byte) (flag : Bool) : (s.writeResultAndFlag x b flag).beep = s.beep := rfl
@[simp] theorem State.writeResultAndFlag_draws (x : Reg) (b : Byte) (flag : Bool) : (s.writeResultAndFlag x b flag).draws = s.draws := rfl
@[simp] theorem State.keyDown_writeResultAndFlag (x : Reg) (b : Byte) (flag : Bool) (k : Nibble) : (s.writeResultAndFlag x b flag).keyDown k = s.keyDown k := rfl

/-! ### setI -/

@[simp] theorem State.setI_v (w : Word) : (s.setI w).v = s.v := rfl
@[simp] theorem State.setI_i (w : Word) : (s.setI w).i = w := rfl
@[simp] theorem State.setI_pc (w : Word) : (s.setI w).pc = s.pc := rfl
@[simp] theorem State.setI_dt (w : Word) : (s.setI w).dt = s.dt := rfl
@[simp] theorem State.setI_st (w : Word) : (s.setI w).st = s.st := rfl
@[simp] theorem State.setI_stack (w : Word) : (s.setI w).stack = s.stack := rfl
@[simp] theorem State.setI_sp (w : Word) : (s.setI w).sp = s.sp := rfl
@[simp] theorem State.setI_mem (w : Word) : (s.setI w).mem = s.mem := rfl
@[simp] theorem State.setI_fb (w : Word) : (s.setI w).fb = s.fb := rfl
@[simp] theorem State.setI_redraw (w : Word) : (s.setI w).redraw = s.redraw := rfl
@[simp] theorem State.setI_keys (w : Word) : (s.setI w).keys = s.keys := rfl
@[simp] theorem State.setI_run (w : Word) : (s.setI w).run = s.run := rfl
@[simp] theorem State.setI_status (w : Word) : (s.setI w).status = s.status := rfl
@[simp] theorem State.setI_beep (w : Word) : (s.setI w).beep = s.beep := rfl
@[simp] theorem State.setI_draws (w : Word) : (s.setI w).draws = s.draws := rfl
@[simp] theorem State.readV_setI (w : Word) (r' : Reg) : (s.setI w).readV r' = s.readV r' := rfl
@[simp] theorem State.keyDown_setI (w : Word) (k : Nibble) : (s.setI w).keyDown k = s.keyDown k := rfl

/-! ### setPc -/

@[simp] theorem State.setPc_v (w : Word) : (s.setPc w).v = s.v := rfl
@[simp] theorem State.setPc_i (w : Word) : (s.setPc w).i = s.i := rfl
@[simp] theorem State.setPc_pc (w : Word) : (s.setPc w).pc = w := rfl
@[simp] theorem State.setPc_dt (w : Word) : (s.setPc w).dt = s.dt := rfl
@[simp] theorem State.setPc_st (w : Word) : (s.setPc w).st = s.st := rfl
@[simp] theorem State.setPc_stack (w : Word) : (s.setPc w).stack = s.stack := rfl
@[simp] theorem State.setPc_sp (w : Word) : (s.setPc w).sp = s.sp := rfl
@[simp] theorem State.setPc_mem (w : Word) : (s.setPc w).mem = s.mem := rfl
@[simp] theorem State.setPc_fb (w : Word) : (s.setPc w).fb = s.fb := rfl
@[simp] theorem State.setPc_redraw (w : Word) : (s.setPc w).redraw = s.redraw := rfl
@[simp] theorem State.setPc_keys (w : Word) : (s.setPc w).keys = s.keys := rfl
@[simp] theorem State.setPc_run (w : Word) : (s.setPc w).run = s.run := rfl
@[simp] theorem State.setPc_status (w : Word) : (s.setPc w).status = s.status := rfl
@[simp] theorem State.setPc_beep (w : Word) : (s.setPc w).beep = s.beep := rfl
@[simp] theorem State.setPc_draws (w : Word) : (s.setPc w).draws = s.draws := rfl
@[simp] theorem State.readV_setPc (w : Word) (r' : Reg) : (s.setPc w).readV r' = s.readV r' := rfl
@[simp] theorem State.keyDown_setPc (w : Word) (k : Nibble) : (s.setPc w).keyDown k = s.keyDown k := rfl

/-! ### advance -/

@[simp] theorem State.advance_v : (s.advance).v = s.v := rfl
@[simp] theorem State.advance_i : (s.advance).i = s.i := rfl
@[simp] theorem State.advance_pc : (s.advance).pc = s.pc + 2#16 := rfl
@[simp] theorem State.advance_dt : (s.advance).dt = s.dt := rfl
@[simp] theorem State.advance_st : (s.advance).st = s.st := rfl
@[simp] theorem State.advance_stack : (s.advance).stack = s.stack := rfl
@[simp] theorem State.advance_sp : (s.advance).sp = s.sp := rfl
@[simp] theorem State.advance_mem : (s.advance).mem = s.mem := rfl
@[simp] theorem State.advance_fb : (s.advance).fb = s.fb := rfl
@[simp] theorem State.advance_redraw : (s.advance).redraw = s.redraw := rfl
@[simp] theorem State.advance_keys : (s.advance).keys = s.keys := rfl
@[simp] theorem State.advance_run : (s.advance).run = s.run := rfl
@[simp] theorem State.advance_status : (s.advance).status = s.status := rfl
@[simp] theorem State.advance_beep : (s.advance).beep = s.beep := rfl
@[simp] theorem State.advance_draws : (s.advance).draws = s.draws := rfl
@[simp] theorem State.readV_advance (r' : Reg) : (s.advance).readV r' = s.readV r' := rfl
@[simp] theorem State.keyDown_advance (k : Nibble) : (s.advance).keyDown k = s.keyDown k := rfl

/-! ### setDt -/

@[simp] theorem State.setDt_v (b : Byte) : (s.setDt b).v = s.v := rfl
@[simp] theorem State.setDt_i (b : Byte) : (s.setDt b).i = s.i := rfl
@[simp] theorem State.setDt_pc (b : Byte) : (s.setDt b).pc = s.pc := rfl
@[simp] theorem State.setDt_dt (b : Byte) : (s.setDt b).dt = b := rfl
@[simp] theorem State.setDt_st (b : Byte) : (s.setDt b).st = s.st := rfl
@[simp] theorem State.setDt_stack (b : Byte) : (s.setDt b).stack = s.stack := rfl
@[simp] theorem State.setDt_sp (b : Byte) : (s.setDt b).sp = s.sp := rfl
@[simp] theorem State.setDt_mem (b : Byte) : (s.setDt b).mem = s.mem := rfl
@[simp] theorem State.setDt_fb (b : Byte) : (s.setDt b).fb = s.fb := rfl
@[simp] theorem State.setDt_redraw (b : Byte) : (s.setDt b).redraw = s.redraw := rfl
@[simp] theorem State.setDt_keys (b : Byte) : (s.setDt b).keys = s.keys := rfl
@[simp] theorem State.setDt_run (b : Byte) : (s.setDt b).run = s.run := rfl
@[simp] theorem State.setDt_status (b : Byte) : (s.setDt b).status = s.status := rfl
@[simp] theorem State.setDt_beep (b : Byte) : (s.setDt b).beep = s.beep := rfl
@[simp] theorem State.setDt_draws (b : Byte) : (s.setDt b).draws = s.draws := rfl
@[simp] theorem State.readV_setDt (b : Byte) (r' : Reg) : (s.setDt b).readV r' = s.readV r' := rfl
@[simp] theorem State.keyDown_setDt (b : Byte) (k : Nibble) : (s.setDt b).keyDown k = s.keyDown k := rfl

/-! ### setSt -/

@[simp] theorem State.setSt_v (b : Byte) : (s.setSt b).v = s.v := rfl
@[simp] theorem State.setSt_i (b : Byte) : (s.setSt b).i = s.i := rfl
@[simp] theorem State.setSt_pc (b : Byte) : (s.setSt b).pc = s.pc := rfl
@[simp] theorem State.setSt_dt (b : Byte) : (s.setSt b).dt = s.dt := rfl
@[simp] theorem State.setSt_st (b : Byte) : (s.setSt b).st = b := rfl
@[simp] theorem State.setSt_stack (b : Byte) : (s.setSt b).stack = s.stack := rfl
@[simp] theorem State.setSt_sp (b : Byte) : (s.setSt b).sp = s.sp := rfl
@[simp] theorem State.setSt_mem (b : Byte) : (s.setSt b).mem = s.mem := rfl
@[simp] theorem State.setSt_fb (b : Byte) : (s.setSt b).fb = s.fb := rfl
@[simp] theorem State.setSt_redraw (b : Byte) : (s.setSt b).redraw = s.redraw := rfl
@[simp] theorem State.setSt_keys (b : Byte) : (s.setSt b).keys = s.keys := rfl
@[simp] theorem State.setSt_run (b : Byte) : (s.setSt b).run = s.run := rfl
@[simp] theorem State.setSt_status (b : Byte) : (s.setSt b).status = s.status := rfl
@[simp] theorem State.setSt_beep (b : Byte) : (s.setSt b).beep = s.beep := rfl
@[simp] theorem State.setSt_draws (b : Byte) : (s.setSt b).draws = s.draws := rfl
@[simp] theorem State.readV_setSt (b : Byte) (r' : Reg) : (s.setSt b).readV r' = s.readV r' := rfl
@[simp] theorem State.keyDown_setSt (b : Byte) (k : Nibble) : (s.setSt b).keyDown k = s.keyDown k := rfl

/-! ### setMem -/

@[simp] theorem State.setMem_v (m : Memory) : (s.setMem m).v = s.v := rfl
@[simp] theorem State.setMem_i (m : Memory) : (s.setMem m).i = s.i := rfl
@[simp] theorem State.setMem_pc (m : Memory) : (s.setMem m).pc = s.pc := rfl
@[simp] theorem State.setMem_dt (m : Memory) : (s.setMem m).dt = s.dt := rfl
@[simp] theorem State.setMem_st (m : Memory) : (s.setMem m).st = s.st := rfl
@[simp] theorem State.setMem_stack (m : Memory) : (s.setMem m).stack = s.stack := rfl
@[simp] theorem State.setMem_sp (m : Memory) : (s.setMem m).sp = s.sp := rfl
@[simp] theorem State.setMem_mem (m : Memory) : (s.setMem m).mem = m := rfl
@[simp] theorem State.setMem_fb (m : Memory) : (s.setMem m).fb = s.fb := rfl
@[simp] theorem State.setMem_redraw (m : Memory) : (s.setMem m).redraw = s.redraw := rfl
@[simp] theorem State.setMem_keys (m : Memory) : (s.setMem m).keys = s.keys := rfl
@[simp] theorem State.setMem_run (m : Memory) : (s.setMem m).run = s.run := rfl
@[simp] theorem State.setMem_status (m : Memory) : (s.setMem m).status = s.status := rfl
@[simp] theorem State.setMem_beep (m : Memory) : (s.setMem m).beep = s.beep := rfl
@[simp] theorem State.setMem_draws (m : Memory) : (s.setMem m).draws = s.draws := rfl
@[simp] theorem State.readV_setMem (m : Memory) (r' : Reg) : (s.setMem m).readV r' = s.readV r' := rfl
@[simp] theorem State.keyDown_setMem (m : Memory) (k : Nibble) : (s.setMem m).keyDown k = s.keyDown k := rfl

/-! ### present -/

@[simp] theorem State.present_v (fb : Framebuffer) : (s.present fb).v = s.v := rfl
@[simp] theorem State.present_i (fb : Framebuffer) : (s.present fb).i = s.i := rfl
@[simp] theorem State.present_pc (fb : Framebuffer) : (s.present fb).pc = s.pc := rfl
@[simp] theorem State.present_dt (fb : Framebuffer) : (s.present fb).dt = s.dt := rfl
@[simp] theorem State.present_st (fb : Framebuffer) : (s.present fb).st = s.st := rfl
@[simp] theorem State.present_stack (fb : Framebuffer) : (s.present fb).stack = s.stack := rfl
@[simp] theorem State.present_sp (fb : Framebuffer) : (s.present fb).sp = s.sp := rfl
@[simp] theorem State.present_mem (fb : Framebuffer) : (s.present fb).mem = s.mem := rfl
@[simp] theorem State.present_fb (fb : Framebuffer) : (s.present fb).fb = fb := rfl
@[simp] theorem State.present_redraw (fb : Framebuffer) : (s.present fb).redraw = true := rfl
@[simp] theorem State.present_keys (fb : Framebuffer) : (s.present fb).keys = s.keys := rfl
@[simp] theorem State.present_run (fb : Framebuffer) : (s.present fb).run = s.run := rfl
@[simp] theorem State.present_status (fb : Framebuffer) : (s.present fb).status = s.status := rfl
@[simp] theorem State.present_beep (fb : Framebuffer) : (s.present fb).beep = s.beep := rfl
@[simp] theorem State.present_draws (fb : Framebuffer) : (s.present fb).draws = s.draws := rfl
@[simp] theorem State.readV_present (fb : Framebuffer) (r' : Reg) : (s.present fb).readV r' = s.readV r' := rfl
@[simp] theorem State.keyDown_present (fb : Framebuffer) (k : Nibble) : (s.present fb).keyDown k = s.keyDown k := rfl

/-! ### setStatus -/

@[simp] theorem State.setStatus_v (x : Status) : (s.setStatus x).v = s.v := rfl
@[simp] theorem State.setStatus_i (x : Status) : (s.setStatus x).i = s.i := rfl
@[simp] theorem State.setStatus_pc (x : Status) : (s.setStatus x).pc = s.pc := rfl
@[simp] theorem State.setStatus_dt (x : Status) : (s.setStatus x).dt = s.dt := rfl
@[simp] theorem State.setStatus_st (x : Status) : (s.setStatus x).st = s.st := rfl
@[simp] theorem State.setStatus_stack (x : Status) : (s.setStatus x).stack = s.stack := rfl
@[simp] theorem State.setStatus_sp (x : Status) : (s.setStatus x).sp = s.sp := rfl
@[simp] theorem State.setStatus_mem (x : Status) : (s.setStatus x).mem = s.mem := rfl
@[simp] theorem State.setStatus_fb (x : Status) : (s.setStatus x).fb = s.fb := rfl
@[simp] theorem State.setStatus_redraw (x : Status) : (s.setStatus x).redraw = s.redraw := rfl
@[simp] theorem State.setStatus_keys (x : Status) : (s.setStatus x).keys = s.keys := rfl
@[simp] theorem State.setStatus_run (x : Status) : (s.setStatus x).run = s.run := rfl
@[simp] theorem State.setStatus_status (x : Status) : (s.setStatus x).status = some x := rfl
@[simp] theorem State.setStatus_beep (x : Status) : (s.setStatus x).beep = s.beep := rfl
@[simp] theorem State.setStatus_draws (x : Status) : (s.setStatus x).draws = s.draws := rfl
@[simp] theorem State.readV_setStatus (x : Status) (r' : Reg) : (s.setStatus x).readV r' = s.readV r' := rfl
@[simp] theorem State.keyDown_setStatus (x : Status) (k : Nibble) : (s.setStatus x).keyDown k = s.keyDown k := rfl

/-! ### raise -/

@[simp] theorem State.raise_v (f : EngineFault) : (s.raise f).v = s.v := rfl
@[simp] theorem State.raise_i (f : EngineFault) : (s.raise f).i = s.i := rfl
@[simp] theorem State.raise_pc (f : EngineFault) : (s.raise f).pc = s.pc := rfl
@[simp] theorem State.raise_dt (f : EngineFault) : (s.raise f).dt = s.dt := rfl
@[simp] theorem State.raise_st (f : EngineFault) : (s.raise f).st = s.st := rfl
@[simp] theorem State.raise_stack (f : EngineFault) : (s.raise f).stack = s.stack := rfl
@[simp] theorem State.raise_sp (f : EngineFault) : (s.raise f).sp = s.sp := rfl
@[simp] theorem State.raise_mem (f : EngineFault) : (s.raise f).mem = s.mem := rfl
@[simp] theorem State.raise_fb (f : EngineFault) : (s.raise f).fb = s.fb := rfl
@[simp] theorem State.raise_redraw (f : EngineFault) : (s.raise f).redraw = s.redraw := rfl
@[simp] theorem State.raise_keys (f : EngineFault) : (s.raise f).keys = s.keys := rfl
@[simp] theorem State.raise_run (f : EngineFault) : (s.raise f).run = .halted f := rfl
@[simp] theorem State.raise_status (f : EngineFault) : (s.raise f).status = some (.fault f) := rfl
@[simp] theorem State.raise_beep (f : EngineFault) : (s.raise f).beep = some false := rfl
@[simp] theorem State.raise_draws (f : EngineFault) : (s.raise f).draws = s.draws := rfl
@[simp] theorem State.readV_raise (f : EngineFault) (r' : Reg) : (s.raise f).readV r' = s.readV r' := rfl
@[simp] theorem State.keyDown_raise (f : EngineFault) (k : Nibble) : (s.raise f).keyDown k = s.keyDown k := rfl

/-! ### tick -/

@[simp] theorem State.tick_v : (s.tick).v = s.v := rfl
@[simp] theorem State.tick_i : (s.tick).i = s.i := rfl
@[simp] theorem State.tick_pc : (s.tick).pc = s.pc := rfl
@[simp] theorem State.tick_dt : (s.tick).dt = countDown s.dt := rfl
@[simp] theorem State.tick_st : (s.tick).st = countDown s.st := rfl
@[simp] theorem State.tick_stack : (s.tick).stack = s.stack := rfl
@[simp] theorem State.tick_sp : (s.tick).sp = s.sp := rfl
@[simp] theorem State.tick_mem : (s.tick).mem = s.mem := rfl
@[simp] theorem State.tick_fb : (s.tick).fb = s.fb := rfl
@[simp] theorem State.tick_redraw : (s.tick).redraw = s.redraw := rfl
@[simp] theorem State.tick_keys : (s.tick).keys = s.keys := rfl
@[simp] theorem State.tick_run : (s.tick).run = s.run := rfl
@[simp] theorem State.tick_status : (s.tick).status = s.status := rfl
@[simp] theorem State.tick_beep : (s.tick).beep = some (beepEdge s.st) := rfl
@[simp] theorem State.tick_draws : (s.tick).draws = s.draws := rfl
@[simp] theorem State.readV_tick (r' : Reg) : (s.tick).readV r' = s.readV r' := rfl
@[simp] theorem State.keyDown_tick (k : Nibble) : (s.tick).keyDown k = s.keyDown k := rfl

/-! ### beginExecute -/

@[simp] theorem State.beginExecute_v : (s.beginExecute).v = s.v := rfl
@[simp] theorem State.beginExecute_i : (s.beginExecute).i = s.i := rfl
@[simp] theorem State.beginExecute_pc : (s.beginExecute).pc = s.pc := rfl
@[simp] theorem State.beginExecute_dt : (s.beginExecute).dt = s.dt := rfl
@[simp] theorem State.beginExecute_st : (s.beginExecute).st = s.st := rfl
@[simp] theorem State.beginExecute_stack : (s.beginExecute).stack = s.stack := rfl
@[simp] theorem State.beginExecute_sp : (s.beginExecute).sp = s.sp := rfl
@[simp] theorem State.beginExecute_mem : (s.beginExecute).mem = s.mem := rfl
@[simp] theorem State.beginExecute_fb : (s.beginExecute).fb = s.fb := rfl
@[simp] theorem State.beginExecute_redraw : (s.beginExecute).redraw = s.redraw := rfl
@[simp] theorem State.beginExecute_keys : (s.beginExecute).keys = s.keys := rfl
@[simp] theorem State.beginExecute_run : (s.beginExecute).run = s.run := rfl
@[simp] theorem State.beginExecute_status : (s.beginExecute).status = some .ok := rfl
@[simp] theorem State.beginExecute_beep : (s.beginExecute).beep = s.beep := rfl
@[simp] theorem State.beginExecute_draws : (s.beginExecute).draws = s.draws := rfl
@[simp] theorem State.readV_beginExecute (r' : Reg) : (s.beginExecute).readV r' = s.readV r' := rfl
@[simp] theorem State.keyDown_beginExecute (k : Nibble) : (s.beginExecute).keyDown k = s.keyDown k := rfl

/-! ### reportDecodeError -/

@[simp] theorem State.reportDecodeError_v (w : Word) : (s.reportDecodeError w).v = s.v := rfl
@[simp] theorem State.reportDecodeError_i (w : Word) : (s.reportDecodeError w).i = s.i := rfl
@[simp] theorem State.reportDecodeError_pc (w : Word) : (s.reportDecodeError w).pc = s.pc := rfl
@[simp] theorem State.reportDecodeError_dt (w : Word) : (s.reportDecodeError w).dt = s.dt := rfl
@[simp] theorem State.reportDecodeError_st (w : Word) : (s.reportDecodeError w).st = s.st := rfl
@[simp] theorem State.reportDecodeError_stack (w : Word) : (s.reportDecodeError w).stack = s.stack := rfl
@[simp] theorem State.reportDecodeError_sp (w : Word) : (s.reportDecodeError w).sp = s.sp := rfl
@[simp] theorem State.reportDecodeError_mem (w : Word) : (s.reportDecodeError w).mem = s.mem := rfl
@[simp] theorem State.reportDecodeError_fb (w : Word) : (s.reportDecodeError w).fb = s.fb := rfl
@[simp] theorem State.reportDecodeError_redraw (w : Word) : (s.reportDecodeError w).redraw = s.redraw := rfl
@[simp] theorem State.reportDecodeError_keys (w : Word) : (s.reportDecodeError w).keys = s.keys := rfl
@[simp] theorem State.reportDecodeError_run (w : Word) : (s.reportDecodeError w).run = s.run := rfl
@[simp] theorem State.reportDecodeError_status (w : Word) : (s.reportDecodeError w).status = some (.decodeError w) := rfl
@[simp] theorem State.reportDecodeError_beep (w : Word) : (s.reportDecodeError w).beep = s.beep := rfl
@[simp] theorem State.reportDecodeError_draws (w : Word) : (s.reportDecodeError w).draws = s.draws := rfl
@[simp] theorem State.readV_reportDecodeError (w : Word) (r' : Reg) : (s.reportDecodeError w).readV r' = s.readV r' := rfl
@[simp] theorem State.keyDown_reportDecodeError (w : Word) (k : Nibble) : (s.reportDecodeError w).keyDown k = s.keyDown k := rfl

/-! ### haltedCycle -/

@[simp] theorem State.haltedCycle_v (f : EngineFault) : (s.haltedCycle f).v = s.v := rfl
@[simp] theorem State.haltedCycle_i (f : EngineFault) : (s.haltedCycle f).i = s.i := rfl
@[simp] theorem State.haltedCycle_pc (f : EngineFault) : (s.haltedCycle f).pc = s.pc := rfl
@[simp] theorem State.haltedCycle_dt (f : EngineFault) : (s.haltedCycle f).dt = s.dt := rfl
@[simp] theorem State.haltedCycle_st (f : EngineFault) : (s.haltedCycle f).st = s.st := rfl
@[simp] theorem State.haltedCycle_stack (f : EngineFault) : (s.haltedCycle f).stack = s.stack := rfl
@[simp] theorem State.haltedCycle_sp (f : EngineFault) : (s.haltedCycle f).sp = s.sp := rfl
@[simp] theorem State.haltedCycle_mem (f : EngineFault) : (s.haltedCycle f).mem = s.mem := rfl
@[simp] theorem State.haltedCycle_fb (f : EngineFault) : (s.haltedCycle f).fb = s.fb := rfl
@[simp] theorem State.haltedCycle_redraw (f : EngineFault) : (s.haltedCycle f).redraw = s.redraw := rfl
@[simp] theorem State.haltedCycle_keys (f : EngineFault) : (s.haltedCycle f).keys = s.keys := rfl
@[simp] theorem State.haltedCycle_run (f : EngineFault) : (s.haltedCycle f).run = s.run := rfl
@[simp] theorem State.haltedCycle_status (f : EngineFault) : (s.haltedCycle f).status = some (.fault f) := rfl
@[simp] theorem State.haltedCycle_beep (f : EngineFault) : (s.haltedCycle f).beep = some false := rfl
@[simp] theorem State.haltedCycle_draws (f : EngineFault) : (s.haltedCycle f).draws = s.draws := rfl
@[simp] theorem State.readV_haltedCycle (f : EngineFault) (r' : Reg) : (s.haltedCycle f).readV r' = s.readV r' := rfl
@[simp] theorem State.keyDown_haltedCycle (f : EngineFault) (k : Nibble) : (s.haltedCycle f).keyDown k = s.keyDown k := rfl

/-! ### drawn -/

@[simp] theorem State.drawn_v : (s.draw8.2).v = s.v := rfl
@[simp] theorem State.drawn_i : (s.draw8.2).i = s.i := rfl
@[simp] theorem State.drawn_pc : (s.draw8.2).pc = s.pc := rfl
@[simp] theorem State.drawn_dt : (s.draw8.2).dt = s.dt := rfl
@[simp] theorem State.drawn_st : (s.draw8.2).st = s.st := rfl
@[simp] theorem State.drawn_stack : (s.draw8.2).stack = s.stack := rfl
@[simp] theorem State.drawn_sp : (s.draw8.2).sp = s.sp := rfl
@[simp] theorem State.drawn_mem : (s.draw8.2).mem = s.mem := rfl
@[simp] theorem State.drawn_fb : (s.draw8.2).fb = s.fb := rfl
@[simp] theorem State.drawn_redraw : (s.draw8.2).redraw = s.redraw := rfl
@[simp] theorem State.drawn_keys : (s.draw8.2).keys = s.keys := rfl
@[simp] theorem State.drawn_run : (s.draw8.2).run = s.run := rfl
@[simp] theorem State.drawn_status : (s.draw8.2).status = s.status := rfl
@[simp] theorem State.drawn_beep : (s.draw8.2).beep = s.beep := rfl
@[simp] theorem State.drawn_draws : (s.draw8.2).draws = s.draws + 1 := rfl
@[simp] theorem State.readV_drawn (r' : Reg) : (s.draw8.2).readV r' = s.readV r' := rfl
@[simp] theorem State.keyDown_drawn (k : Nibble) : (s.draw8.2).keyDown k = s.keyDown k := rfl

/-! ### writeKeys -/

@[simp] theorem State.writeKeys_v (keys : Vector Bool 16) : (s.writeKeys keys).v = s.v := rfl
@[simp] theorem State.writeKeys_i (keys : Vector Bool 16) : (s.writeKeys keys).i = s.i := rfl
@[simp] theorem State.writeKeys_pc (keys : Vector Bool 16) : (s.writeKeys keys).pc = s.pc := rfl
@[simp] theorem State.writeKeys_dt (keys : Vector Bool 16) : (s.writeKeys keys).dt = s.dt := rfl
@[simp] theorem State.writeKeys_st (keys : Vector Bool 16) : (s.writeKeys keys).st = s.st := rfl
@[simp] theorem State.writeKeys_stack (keys : Vector Bool 16) : (s.writeKeys keys).stack = s.stack := rfl
@[simp] theorem State.writeKeys_sp (keys : Vector Bool 16) : (s.writeKeys keys).sp = s.sp := rfl
@[simp] theorem State.writeKeys_mem (keys : Vector Bool 16) : (s.writeKeys keys).mem = s.mem := rfl
@[simp] theorem State.writeKeys_fb (keys : Vector Bool 16) : (s.writeKeys keys).fb = s.fb := rfl
@[simp] theorem State.writeKeys_redraw (keys : Vector Bool 16) : (s.writeKeys keys).redraw = s.redraw := rfl
@[simp] theorem State.writeKeys_keys (keys : Vector Bool 16) : (s.writeKeys keys).keys = keys := rfl
@[simp] theorem State.writeKeys_run (keys : Vector Bool 16) : (s.writeKeys keys).run = s.run := rfl
@[simp] theorem State.writeKeys_status (keys : Vector Bool 16) : (s.writeKeys keys).status = s.status := rfl
@[simp] theorem State.writeKeys_beep (keys : Vector Bool 16) : (s.writeKeys keys).beep = s.beep := rfl
@[simp] theorem State.writeKeys_draws (keys : Vector Bool 16) : (s.writeKeys keys).draws = s.draws := rfl
@[simp] theorem State.readV_writeKeys (keys : Vector Bool 16) (r' : Reg) : (s.writeKeys keys).readV r' = s.readV r' := rfl

/-! ### clearRedraw -/

@[simp] theorem State.clearRedraw_v : (s.clearRedraw).v = s.v := rfl
@[simp] theorem State.clearRedraw_i : (s.clearRedraw).i = s.i := rfl
@[simp] theorem State.clearRedraw_pc : (s.clearRedraw).pc = s.pc := rfl
@[simp] theorem State.clearRedraw_dt : (s.clearRedraw).dt = s.dt := rfl
@[simp] theorem State.clearRedraw_st : (s.clearRedraw).st = s.st := rfl
@[simp] theorem State.clearRedraw_stack : (s.clearRedraw).stack = s.stack := rfl
@[simp] theorem State.clearRedraw_sp : (s.clearRedraw).sp = s.sp := rfl
@[simp] theorem State.clearRedraw_mem : (s.clearRedraw).mem = s.mem := rfl
@[simp] theorem State.clearRedraw_fb : (s.clearRedraw).fb = s.fb := rfl
@[simp] theorem State.clearRedraw_redraw : (s.clearRedraw).redraw = false := rfl
@[simp] theorem State.clearRedraw_keys : (s.clearRedraw).keys = s.keys := rfl
@[simp] theorem State.clearRedraw_run : (s.clearRedraw).run = s.run := rfl
@[simp] theorem State.clearRedraw_status : (s.clearRedraw).status = s.status := rfl
@[simp] theorem State.clearRedraw_beep : (s.clearRedraw).beep = s.beep := rfl
@[simp] theorem State.clearRedraw_draws : (s.clearRedraw).draws = s.draws := rfl
@[simp] theorem State.readV_clearRedraw (r' : Reg) : (s.clearRedraw).readV r' = s.readV r' := rfl
@[simp] theorem State.keyDown_clearRedraw (k : Nibble) : (s.clearRedraw).keyDown k = s.keyDown k := rfl

/-! ### The register file -/

/-- A read after a write: the written register holds the value, every other one what it held. -/
theorem State.readV_writeV (r r' : Reg) (b : Byte) :
    (s.writeV r b).readV r' = if r' = r then b else s.readV r' := by
  unfold State.writeV State.readV
  by_cases h : r' = r
  · simp [h]
  · have h' : r.toNat ≠ r'.toNat := fun e => h (BitVec.eq_of_toNat_eq e.symm)
    simp [h, h']

@[simp] theorem State.readV_writeV_self (r : Reg) (b : Byte) : (s.writeV r b).readV r = b := by
  simp [State.readV_writeV]

/-- VF after a flag write is the flag's byte, and every other register holds what it held. -/
theorem State.readV_writeFlag (flag : Bool) (r : Reg) :
    (s.writeFlag flag).readV r = if r = flagReg then flagByte flag else s.readV r :=
  s.readV_writeV flagReg r (flagByte flag)

/-- The flag is written last: it wins over the result when X = 0xF (R131). -/
theorem State.readV_writeResultAndFlag (x r : Reg) (b : Byte) (flag : Bool) :
    (s.writeResultAndFlag x b flag).readV r =
      if r = flagReg then flagByte flag else if r = x then b else s.readV r := by
  unfold State.writeResultAndFlag
  rw [State.readV_writeFlag, State.readV_writeV]

/-! ### A run of registers -/

/-- A field other than the register file is not touched by `writeVList`. -/
theorem State.writeVList_field {α : Type} (g : State → α) (hg : ∀ (t : State) r b, g (t.writeV r b) = g t)
    (bs : List Byte) : ∀ (t : State) (k : Nat), g (t.writeVList k bs) = g t := by
  induction bs with
  | nil => intro t k; rfl
  | cons b bs ih =>
    intro t k
    unfold State.writeVList
    rw [ih]
    split
    · exact hg _ _ _
    · rfl

@[simp] theorem State.writeVList_i (k : Nat) (bs : List Byte) : (s.writeVList k bs).i = s.i :=
  State.writeVList_field (·.i) (fun _ _ _ => rfl) bs s k

@[simp] theorem State.writeVList_pc (k : Nat) (bs : List Byte) : (s.writeVList k bs).pc = s.pc :=
  State.writeVList_field (·.pc) (fun _ _ _ => rfl) bs s k

@[simp] theorem State.writeVList_dt (k : Nat) (bs : List Byte) : (s.writeVList k bs).dt = s.dt :=
  State.writeVList_field (·.dt) (fun _ _ _ => rfl) bs s k

@[simp] theorem State.writeVList_st (k : Nat) (bs : List Byte) : (s.writeVList k bs).st = s.st :=
  State.writeVList_field (·.st) (fun _ _ _ => rfl) bs s k

@[simp] theorem State.writeVList_stack (k : Nat) (bs : List Byte) : (s.writeVList k bs).stack = s.stack :=
  State.writeVList_field (·.stack) (fun _ _ _ => rfl) bs s k

@[simp] theorem State.writeVList_sp (k : Nat) (bs : List Byte) : (s.writeVList k bs).sp = s.sp :=
  State.writeVList_field (·.sp) (fun _ _ _ => rfl) bs s k

@[simp] theorem State.writeVList_mem (k : Nat) (bs : List Byte) : (s.writeVList k bs).mem = s.mem :=
  State.writeVList_field (·.mem) (fun _ _ _ => rfl) bs s k

@[simp] theorem State.writeVList_fb (k : Nat) (bs : List Byte) : (s.writeVList k bs).fb = s.fb :=
  State.writeVList_field (·.fb) (fun _ _ _ => rfl) bs s k

@[simp] theorem State.writeVList_redraw (k : Nat) (bs : List Byte) : (s.writeVList k bs).redraw = s.redraw :=
  State.writeVList_field (·.redraw) (fun _ _ _ => rfl) bs s k

@[simp] theorem State.writeVList_keys (k : Nat) (bs : List Byte) : (s.writeVList k bs).keys = s.keys :=
  State.writeVList_field (·.keys) (fun _ _ _ => rfl) bs s k

@[simp] theorem State.writeVList_run (k : Nat) (bs : List Byte) : (s.writeVList k bs).run = s.run :=
  State.writeVList_field (·.run) (fun _ _ _ => rfl) bs s k

@[simp] theorem State.writeVList_status (k : Nat) (bs : List Byte) : (s.writeVList k bs).status = s.status :=
  State.writeVList_field (·.status) (fun _ _ _ => rfl) bs s k

@[simp] theorem State.writeVList_beep (k : Nat) (bs : List Byte) : (s.writeVList k bs).beep = s.beep :=
  State.writeVList_field (·.beep) (fun _ _ _ => rfl) bs s k

@[simp] theorem State.writeVList_draws (k : Nat) (bs : List Byte) : (s.writeVList k bs).draws = s.draws :=
  State.writeVList_field (·.draws) (fun _ _ _ => rfl) bs s k

/-- `V[k + j]` after a run of registers from `k` is the run's byte `j`, and a register outside the run
holds what it held. -/
theorem State.readV_writeVList (bs : List Byte) : ∀ (t : State) (k : Nat), k + bs.length ≤ 16 → ∀ r : Reg,
    (t.writeVList k bs).readV r =
      if h : k ≤ r.toNat ∧ r.toNat - k < bs.length then bs[r.toNat - k]'h.2 else t.readV r := by
  induction bs with
  | nil => intro t k _ r; simp [State.writeVList]
  | cons b bs ih =>
    intro t k hk r
    simp only [List.length_cons] at hk
    unfold State.writeVList
    rw [ih _ _ (by omega), if_pos (by omega), State.readV_writeV]
    have hkr : r = BitVec.ofNat 4 k ↔ r.toNat = k := by
      constructor
      · intro e; rw [e, BitVec.toNat_ofNat]; omega
      · intro e; rw [← e]; simp
    by_cases h1 : r.toNat = k
    · simp [hkr, h1]
    · by_cases h2 : k + 1 ≤ r.toNat ∧ r.toNat - (k + 1) < bs.length
      · have h3 : k ≤ r.toNat ∧ r.toNat - k < (b :: bs).length := by
          simp only [List.length_cons]; omega
        rw [dif_pos h2, dif_pos h3]
        have e : r.toNat - k = (r.toNat - (k + 1)) + 1 := by omega
        simp [e]
      · have h3 : ¬(k ≤ r.toNat ∧ r.toNat - k < (b :: bs).length) := by
          simp only [List.length_cons]; omega
        rw [dif_neg h2, dif_neg h3, if_neg (fun e => h1 (hkr.mp e))]

@[simp] theorem State.length_readVList (n : Nat) : ∀ k, (s.readVList k n).length = n := by
  induction n with
  | zero => intro k; rfl
  | succ n ih => intro k; simp [State.readVList, ih]

/-- Byte `j` of the run of registers from `k` is `V[k + j]`. -/
theorem State.getElem_readVList (n : Nat) : ∀ (k j : Nat) (h : j < (s.readVList k n).length),
    (s.readVList k n)[j] = s.readV (BitVec.ofNat 4 (k + j)) := by
  induction n with
  | zero => intro k j h; simp [State.readVList] at h
  | succ n ih =>
    intro k j h
    cases j with
    | zero => simp [State.readVList]
    | succ j =>
      simp only [State.readVList, List.getElem_cons_succ]
      rw [ih]
      congr 2
      omega

end Sys2Proof.Machine
end

