-- ==== Sys2Proof/Laws/Ops.lean ====
section
/-! SUPPORT. One specification for each shared operation of Ops.lean, Operands.lean and Flags.lean, in
the form the spec's rules use. -/

namespace Sys2Proof.Machine

@[simp] theorem State.settle_ok (s t : State) : s.settle (.ok t) = .next t := rfl

@[simp] theorem State.settle_error (s : State) (f : EngineFault) : s.settle (.error f) = .next (s.raise f) := rfl

/-- An execute stage that can fault always answers a next state: its result, or the fault raised over
the state it began in (R80, R179). -/
theorem State.settle_next (s : State) (r : Except EngineFault State) :
    ∃ t, s.settle r = .next t ∧ (r = .ok t ∨ ∃ f, r = .error f ∧ t = s.raise f) := by
  cases r with
  | ok t => exact ⟨t, rfl, .inl rfl⟩
  | error f => exact ⟨_, rfl, .inr ⟨f, rfl, rfl⟩⟩

/-! ## The call stack (R20) -/

theorem State.push_of_lt (s : State) (a : Word) (h : s.sp.val < 16) : s.push a =
    .ok { s with stack := s.stack.set s.sp.val a h, sp := ⟨s.sp.val + 1, Nat.succ_lt_succ h⟩ } := dif_pos h

theorem State.push_of_full (s : State) (a : Word) (h : s.sp.val = 16) :
    s.push a = .error (.stackOverflow s.pc) := dif_neg (by omega)

theorem State.pop_of_pos (s : State) (h : s.sp.val ≠ 0) : s.pop =
    .ok (s.stack[s.sp.val - 1]'(by omega), { s with sp := ⟨s.sp.val - 1, by omega⟩ }) := dif_neg h

theorem State.pop_of_empty (s : State) (h : s.sp.val = 0) : s.pop = .error (.stackUnderflow s.pc) := dif_pos h

/-! ## Arithmetic (R132) -/

theorem add8_eq (a b : Byte) : add8 a b = a + b := by
  apply BitVec.eq_of_toNat_eq
  simp [add8]

theorem sub8_eq (a b : Byte) : sub8 a b = a - b := by
  apply BitVec.eq_of_toNat_eq
  have ha := a.isLt
  have hb := b.isLt
  simp only [sub8, BitVec.toNat_ofInt, BitVec.toNat_sub]
  omega

theorem shiftRight8_eq (a : Byte) : shiftRight8 a = a >>> 1 := by
  apply BitVec.eq_of_toNat_eq
  have ha := a.isLt
  simp only [shiftRight8, BitVec.toNat_ofNat, BitVec.toNat_ushiftRight, Nat.shiftRight_one]
  omega

theorem shiftLeft8_eq (a : Byte) : shiftLeft8 a = a <<< 1 := by
  apply BitVec.eq_of_toNat_eq
  simp [shiftLeft8, Nat.shiftLeft_eq]

theorem noBorrow_eq (a b : Byte) : noBorrow a b = decide (b ≤ a) := by
  unfold noBorrow
  rw [← decide_not]
  exact decide_eq_decide.mpr (by rw [BitVec.le_def]; exact Nat.not_lt)

/-- `u16` never changes the target of `BNNN` (R16, R104). -/
theorem indexedTarget_toNat (nnn : Addr12) (v0 : Byte) :
    (indexedTarget nnn v0).toNat = nnn.toNat + v0.toNat := by
  have h1 := nnn.isLt
  have h2 := v0.isLt
  simp only [indexedTarget, BitVec.toNat_ofNat]
  omega

theorem addressOperand_toNat (nnn : Addr12) : (addressOperand nnn).toNat = nnn.toNat := by
  have h := nnn.isLt
  simp only [addressOperand, BitVec.toNat_setWidth]
  omega

/-- The product of `FX29` never wraps (R154). -/
theorem glyphAddress_toNat (vx : Byte) : (glyphAddress vx).toNat = vx.toNat * 5 := by
  have h := vx.isLt
  simp only [glyphAddress, Config.glyphLen, BitVec.toNat_ofNat]
  omega

/-! ## Keys (R158) -/

/-- A key that `FX0A` finds is down, and none below it is. -/
theorem State.lowestKey_eq_some (s : State) (k : Fin 16) (h : s.lowestKey = some k) :
    s.keys[k.val] = true ∧ ∀ j : Fin 16, j < k → s.keys[j.val] = false := by
  unfold State.lowestKey at h
  refine ⟨List.find?_some (p := fun k : Fin 16 => s.keys[k.val]) h, fun j hj => ?_⟩
  obtain ⟨_, as, bs, hl, hnot⟩ := List.find?_eq_some_iff_append.mp h
  have hmem : j ∈ List.finRange 16 := List.mem_finRange j
  rw [hl] at hmem
  rcases List.mem_append.mp hmem with hm | hm
  · simpa using hnot j hm
  · exfalso
    have hs : (List.finRange 16).Pairwise (· < ·) := List.pairwise_lt_finRange 16
    rw [hl] at hs
    have := (List.pairwise_append.mp hs).2.1
    rcases List.mem_cons.mp hm with rfl | hb
    · exact lt_irrefl _ hj
    · exact lt_asymm hj ((List.pairwise_cons.mp this).1 j hb)

/-- Where `FX0A` finds no key, none is down. -/
theorem State.lowestKey_eq_none (s : State) : s.lowestKey = none ↔ ∀ k : Fin 16, s.keys[k.val] = false := by
  simp [State.lowestKey]

end Sys2Proof.Machine
end

