-- ==== Sys2Proof/Laws/PerInstr.lean ====
section
/-! SUPPORT. Facts about every instruction as syntax, one lemma per constructor. -/

/-! ## The word of an instruction lies in the row of the opcode map that the table gives it (R65) -/

namespace Sys2Proof.Laws.EncodesInItsOpcodeRow

/-- The encoded word, under the row's mask, is the row's match. -/
def Statement (i : Instr) : Prop := (opcodeRow i).covers (encode i) = true

theorem masked_formatFA (c : Nibble) (nnn : Addr12) :
    formatFA c nnn &&& 0xF000#16 = formatFA c 0#12 := by
  unfold formatFA
  apply BitVec.eq_of_getLsbD_eq
  intro i hi
  simp only [BitVec.getLsbD_and, BitVec.getLsbD_cast, BitVec.getLsbD_append]
  interval_cases i <;> simp

theorem masked_formatFXK (c : Nibble) (x : Reg) (nn : Byte) :
    formatFXK c x nn &&& 0xF000#16 = formatFXK c 0#4 0#8 ∧
      formatFXK c x nn &&& 0xF0FF#16 = formatFXK c 0#4 nn := by
  unfold formatFXK
  refine ⟨?_, ?_⟩ <;> apply BitVec.eq_of_getLsbD_eq <;> intro i hi <;>
    simp only [BitVec.getLsbD_and, BitVec.getLsbD_cast, BitVec.getLsbD_append] <;>
    interval_cases i <;> simp

theorem masked_formatFXY (c : Nibble) (x y : Reg) (n : Nibble) :
    formatFXY c x y n &&& 0xF000#16 = formatFXY c 0#4 0#4 0#4 ∧
      formatFXY c x y n &&& 0xF00F#16 = formatFXY c 0#4 0#4 n := by
  unfold formatFXY
  refine ⟨?_, ?_⟩ <;> apply BitVec.eq_of_getLsbD_eq <;> intro i hi <;>
    simp only [BitVec.getLsbD_and, BitVec.getLsbD_cast, BitVec.getLsbD_append] <;>
    interval_cases i <;> simp

theorem cls : Statement .cls :=
  rfl

theorem ret : Statement .ret :=
  rfl

theorem jp (nnn : Addr12) : Statement (.jp nnn) :=
  beq_iff_eq.mpr (masked_formatFA 0x1#4 nnn)

theorem call (nnn : Addr12) : Statement (.call nnn) :=
  beq_iff_eq.mpr (masked_formatFA 0x2#4 nnn)

theorem seImm (x : Reg) (nn : Byte) : Statement (.seImm x nn) :=
  beq_iff_eq.mpr (masked_formatFXK 0x3#4 x nn).1

theorem sneImm (x : Reg) (nn : Byte) : Statement (.sneImm x nn) :=
  beq_iff_eq.mpr (masked_formatFXK 0x4#4 x nn).1

theorem seReg (x y : Reg) : Statement (.seReg x y) :=
  beq_iff_eq.mpr (masked_formatFXY 0x5#4 x y 0x0#4).2

theorem ldImm (x : Reg) (nn : Byte) : Statement (.ldImm x nn) :=
  beq_iff_eq.mpr (masked_formatFXK 0x6#4 x nn).1

theorem addImm (x : Reg) (nn : Byte) : Statement (.addImm x nn) :=
  beq_iff_eq.mpr (masked_formatFXK 0x7#4 x nn).1

theorem ldReg (x y : Reg) : Statement (.ldReg x y) :=
  beq_iff_eq.mpr (masked_formatFXY 0x8#4 x y 0x0#4).2

theorem orReg (x y : Reg) : Statement (.orReg x y) :=
  beq_iff_eq.mpr (masked_formatFXY 0x8#4 x y 0x1#4).2

theorem andReg (x y : Reg) : Statement (.andReg x y) :=
  beq_iff_eq.mpr (masked_formatFXY 0x8#4 x y 0x2#4).2

theorem xorReg (x y : Reg) : Statement (.xorReg x y) :=
  beq_iff_eq.mpr (masked_formatFXY 0x8#4 x y 0x3#4).2

theorem addReg (x y : Reg) : Statement (.addReg x y) :=
  beq_iff_eq.mpr (masked_formatFXY 0x8#4 x y 0x4#4).2

theorem subReg (x y : Reg) : Statement (.subReg x y) :=
  beq_iff_eq.mpr (masked_formatFXY 0x8#4 x y 0x5#4).2

theorem shr (x y : Reg) : Statement (.shr x y) :=
  beq_iff_eq.mpr (masked_formatFXY 0x8#4 x y 0x6#4).2

theorem subnReg (x y : Reg) : Statement (.subnReg x y) :=
  beq_iff_eq.mpr (masked_formatFXY 0x8#4 x y 0x7#4).2

theorem shl (x y : Reg) : Statement (.shl x y) :=
  beq_iff_eq.mpr (masked_formatFXY 0x8#4 x y 0xE#4).2

theorem sneReg (x y : Reg) : Statement (.sneReg x y) :=
  beq_iff_eq.mpr (masked_formatFXY 0x9#4 x y 0x0#4).2

theorem ldI (nnn : Addr12) : Statement (.ldI nnn) :=
  beq_iff_eq.mpr (masked_formatFA 0xA#4 nnn)

theorem jpV0 (nnn : Addr12) : Statement (.jpV0 nnn) :=
  beq_iff_eq.mpr (masked_formatFA 0xB#4 nnn)

theorem rnd (x : Reg) (nn : Byte) : Statement (.rnd x nn) :=
  beq_iff_eq.mpr (masked_formatFXK 0xC#4 x nn).1

theorem drw (x y : Reg) (n : Nibble) : Statement (.drw x y n) :=
  beq_iff_eq.mpr (masked_formatFXY 0xD#4 x y n).1

theorem skp (x : Reg) : Statement (.skp x) :=
  beq_iff_eq.mpr (masked_formatFXK 0xE#4 x 0x9E#8).2

theorem sknp (x : Reg) : Statement (.sknp x) :=
  beq_iff_eq.mpr (masked_formatFXK 0xE#4 x 0xA1#8).2

theorem ldVxDt (x : Reg) : Statement (.ldVxDt x) :=
  beq_iff_eq.mpr (masked_formatFXK 0xF#4 x 0x07#8).2

theorem ldVxK (x : Reg) : Statement (.ldVxK x) :=
  beq_iff_eq.mpr (masked_formatFXK 0xF#4 x 0x0A#8).2

theorem ldDtVx (x : Reg) : Statement (.ldDtVx x) :=
  beq_iff_eq.mpr (masked_formatFXK 0xF#4 x 0x15#8).2

theorem ldStVx (x : Reg) : Statement (.ldStVx x) :=
  beq_iff_eq.mpr (masked_formatFXK 0xF#4 x 0x18#8).2

theorem addI (x : Reg) : Statement (.addI x) :=
  beq_iff_eq.mpr (masked_formatFXK 0xF#4 x 0x1E#8).2

theorem ldF (x : Reg) : Statement (.ldF x) :=
  beq_iff_eq.mpr (masked_formatFXK 0xF#4 x 0x29#8).2

theorem ldB (x : Reg) : Statement (.ldB x) :=
  beq_iff_eq.mpr (masked_formatFXK 0xF#4 x 0x33#8).2

theorem storeRegs (x : Reg) : Statement (.storeRegs x) :=
  beq_iff_eq.mpr (masked_formatFXK 0xF#4 x 0x55#8).2

theorem loadRegs (x : Reg) : Statement (.loadRegs x) :=
  beq_iff_eq.mpr (masked_formatFXK 0xF#4 x 0x65#8).2

theorem sys (nnn : Addr12) : Statement (.sys nnn) :=
  beq_iff_eq.mpr (masked_formatFA 0x0#4 nnn)

end Sys2Proof.Laws.EncodesInItsOpcodeRow
end

