-- ==== Sys2Proof/Laws/Step.lean ====
section
/-! SUPPORT. What an execute stage and a cycle can do, said once: the inversion lemmas that invariants
and whole-machine claims cite instead of unfolding `exec` and `step`. -/

namespace Sys2Proof.Machine

/-- Every instruction answers a next state: what it leaves when it completes, with `RUN`, the beep and
the keypad as they were, or its fatal fault raised over the state it began in. -/
theorem exec_answers_next (i : Instr) (s : State) : ∃ t, exec i s = .next t ∧
    ((t.run = s.run ∧ t.beep = s.beep ∧ t.keys = s.keys) ∨ ∃ f, t = s.raise f) := by
  cases i
  case ret =>
    simp only [exec, execRet]
    by_cases h : s.sp.val = 0
    · rw [State.pop_of_empty s h]; exact ⟨_, rfl, .inr ⟨_, rfl⟩⟩
    · rw [State.pop_of_pos s h]; exact ⟨_, rfl, .inl ⟨rfl, rfl, rfl⟩⟩
  case call nnn =>
    simp only [exec, execCall]
    by_cases h : s.sp.val < 16
    · rw [State.push_of_lt s _ h]; exact ⟨_, rfl, .inl ⟨rfl, rfl, rfl⟩⟩
    · rw [State.push_of_full s _ (by omega)]; exact ⟨_, rfl, .inr ⟨_, rfl⟩⟩
  case drw x y n =>
    simp only [exec, execDrw]
    cases s.mem.load s.i.toNat n.toNat with
    | ok rows => exact ⟨_, rfl, .inl ⟨rfl, rfl, rfl⟩⟩
    | error f => exact ⟨_, rfl, .inr ⟨f, rfl⟩⟩
  case ldB x =>
    simp only [exec, execLdB]
    cases s.mem.store s.i.toNat (bcdDigits (s.readV x)) with
    | ok m => exact ⟨_, rfl, .inl ⟨rfl, rfl, rfl⟩⟩
    | error f => exact ⟨_, rfl, .inr ⟨f, rfl⟩⟩
  case storeRegs x =>
    simp only [exec, execStoreRegs]
    cases s.mem.store s.i.toNat (s.readVList 0 (runLength x)) with
    | ok m => exact ⟨_, rfl, .inl ⟨rfl, rfl, rfl⟩⟩
    | error f => exact ⟨_, rfl, .inr ⟨f, rfl⟩⟩
  case loadRegs x =>
    simp only [exec, execLoadRegs]
    cases s.mem.load s.i.toNat (runLength x) with
    | ok bytes => exact ⟨_, rfl, .inl ⟨by simp, by simp, by simp⟩⟩
    | error f => exact ⟨_, rfl, .inr ⟨f, rfl⟩⟩
  case ldVxK x =>
    simp only [exec, execLdVxK]
    cases s.lowestKey with
    | some k => exact ⟨_, rfl, .inl ⟨rfl, rfl, rfl⟩⟩
    | none => exact ⟨_, rfl, .inl ⟨rfl, rfl, rfl⟩⟩
  all_goals
    simp only [exec, execSeImm, execSneImm, execSeReg, execSneReg, execSkp, execSknp, skipIf]
    first
      | exact ⟨_, rfl, .inl ⟨rfl, rfl, rfl⟩⟩
      | (refine ⟨_, rfl, .inl ?_⟩
         split <;> exact ⟨rfl, rfl, rfl⟩)

/-- The fetch (R40, R81, R172): the word at PC, or the lowest address outside the memory. -/
theorem fetch_spec (s : State) : fetch s =
    if s.pc.toNat ≤ 0xFFE then .ok (wordAtPc s) else .error (.memoryFault (max s.pc.toNat 4096)) := by
  unfold fetch wordAtPc
  rw [checkRange_spec]
  by_cases h : s.pc.toNat ≤ 0xFFE
  · rw [if_pos h, if_pos (Or.inr (by omega))]
  · rw [if_neg h, if_neg (by omega)]

/-- Everything a cycle can do (R80, R86, R178): report the halt, raise the fetch's fault, report an
`Undefined` word and tick, or execute the decoded instruction and tick unless it raised. -/
theorem step_cases (s t : State) (h : step s = .next t) :
    (∃ f, s.run = .halted f ∧ t = s.haltedCycle f) ∨
    (s.run = .running ∧ 0xFFE < s.pc.toNat ∧ t = s.raise (.memoryFault (max s.pc.toNat 4096))) ∨
    (CanFetch s ∧ (∃ e, decode (wordAtPc s) = .error e) ∧ t = (s.reportDecodeError (wordAtPc s)).tick) ∨
    (CanFetch s ∧ ∃ i u, decode (wordAtPc s) = .ok i ∧ exec i s.beginExecute = .next u ∧
      ((u.run = .running ∧ u.keys = s.keys ∧ t = u.tick) ∨ ∃ f, u = s.beginExecute.raise f ∧ t = s.raise f)) := by
  unfold step at h
  cases hr : s.run with
  | halted f =>
    rw [hr] at h
    exact .inl ⟨f, rfl, by injection h with h; exact h.symm⟩
  | running =>
    rw [hr, fetch_spec] at h
    by_cases hp : s.pc.toNat ≤ 0xFFE
    · rw [if_pos hp] at h
      simp only at h
      have hf : CanFetch s := ⟨hr, hp⟩
      cases hd : decode (wordAtPc s) with
      | error e =>
        rw [hd] at h
        refine .inr (.inr (.inl ⟨hf, ⟨e, rfl⟩, ?_⟩))
        injection h with h
        rw [← h]
        simp only [State.endExecute, State.reportDecodeError_run, State.beginExecute_run, hr]
        rfl
      | ok i =>
        rw [hd] at h
        obtain ⟨u, hu, hcase⟩ := exec_answers_next i s.beginExecute
        simp only [hu, endCycle] at h
        injection h with h
        refine .inr (.inr (.inr ⟨hf, i, u, rfl, hu, ?_⟩))
        rcases hcase with ⟨hrun, -, hkeys⟩ | ⟨f, hf'⟩
        · have hrun' : u.run = .running := hrun.trans hr
          refine .inl ⟨hrun', hkeys, ?_⟩
          rw [← h, State.endExecute, hrun']
        · refine .inr ⟨f, hf', ?_⟩
          rw [← h, hf']
          rfl
    · rw [if_neg hp] at h
      exact .inr (.inl ⟨rfl, by omega, by injection h with h; exact h.symm⟩)

end Sys2Proof.Machine
end

