-- ==== Sys2Proof/Tests/Slice0.lean ====
section
/-! SUPPORT. Tests, each of one step or one decode. The expected results are the worked examples and the
vectors of 95_test_vectors.md (its Part 1 items W1 to W7 and its Part 2 tables), which its author derived
by hand from the rules; none is the model's own answer. After them stands one witness theorem for the
hypotheses of each statement that has any. -/

namespace Sys2Proof.Tests

open Sys2Proof.Machine

/-- The reset state with a word where the first cycle fetches it. -/
def ready (w : Nat) : State := State.reset.withFetchWord 16 w

/-- The state after one cycle. -/
def cycle (s : State) : State :=
  match step s with
  | .next t => t
  | .fault _ => s
  | .refused _ => s

/-- A state with bytes in its first registers, V0 first. -/
def withV (s : State) (bs : List Byte) : State := s.writeVList 0 bs

/-- A state with bytes in memory. -/
def withMem (s : State) (base : Nat) (bs : List Byte) : State := s.setMem (s.mem.writeList base bs)

/-- A state with one more key down. -/
def press (s : State) (k : Fin 16) : State := { s with keys := s.keys.set k.val true }

/-- A state with one pixel flipped. -/
def flip (s : State) (x : Fin 64) (y : Fin 32) : State := { s with fb := togglePixel s.fb x y }

/-! ## WellFormed (R65, R166): the ill-formed terms it refuses -/

theorem test_wf_refuses_sys_0E0 : (Instr.sys 0x0E0#12).wellFormed = false := by decide
theorem test_wf_refuses_sys_0EE : (Instr.sys 0x0EE#12).wellFormed = false := by decide
theorem test_wf_accepts_sys_000 : (Instr.sys 0x000#12).wellFormed = true := by decide

/-! ## Decoding: words written out from the formats of R62 and the map of R65 -/

theorem test_decode_flow :
    decode 0b0000000011100000#16 = .ok .cls ∧ decode 0b0000000011101110#16 = .ok .ret ∧
    decode 0b0001101010111100#16 = .ok (.jp 0xABC#12) ∧ decode 0b0010101010111100#16 = .ok (.call 0xABC#12) ∧
    decode 0b1011001100000000#16 = .ok (.jpV0 0x300#12) := by decide

theorem test_decode_skips :
    decode 0b0011101001000010#16 = .ok (.seImm 0xA#4 0x42#8) ∧
    decode 0b0100101001000010#16 = .ok (.sneImm 0xA#4 0x42#8) ∧
    decode 0b0101000100100000#16 = .ok (.seReg 1#4 2#4) ∧ decode 0b1001000100100000#16 = .ok (.sneReg 1#4 2#4) ∧
    decode 0b1110101010011110#16 = .ok (.skp 0xA#4) ∧ decode 0b1110101010100001#16 = .ok (.sknp 0xA#4) := by
  decide

theorem test_decode_load_and_logic :
    decode 0b0110101001111111#16 = .ok (.ldImm 0xA#4 0x7F#8) ∧
    decode 0b0111000100000101#16 = .ok (.addImm 1#4 5#8) ∧ decode 0b1000000100100000#16 = .ok (.ldReg 1#4 2#4) ∧
    decode 0b1000000100100001#16 = .ok (.orReg 1#4 2#4) ∧ decode 0b1000000100100010#16 = .ok (.andReg 1#4 2#4) ∧
    decode 0b1000000100100011#16 = .ok (.xorReg 1#4 2#4) := by decide

theorem test_decode_arithmetic :
    decode 0b1000101010110100#16 = .ok (.addReg 0xA#4 0xB#4) ∧
    decode 0b1000000100100101#16 = .ok (.subReg 1#4 2#4) ∧ decode 0b1000000100100110#16 = .ok (.shr 1#4 2#4) ∧
    decode 0b1000000100100111#16 = .ok (.subnReg 1#4 2#4) ∧
    decode 0b1000101010111110#16 = .ok (.shl 0xA#4 0xB#4) := by decide

theorem test_decode_index_random_sprite :
    decode 0b1010001011110000#16 = .ok (.ldI 0x2F0#12) ∧ decode 0b1100000100001111#16 = .ok (.rnd 1#4 0x0F#8) ∧
    decode 0b1101000100100101#16 = .ok (.drw 1#4 2#4 5#4) ∧ decode 0b1101000000000000#16 = .ok (.drw 0 0 0) := by
  decide

theorem test_decode_class_F :
    decode 0b1111001100000111#16 = .ok (.ldVxDt 3#4) ∧ decode 0b1111001000001010#16 = .ok (.ldVxK 2#4) ∧
    decode 0b1111000000010101#16 = .ok (.ldDtVx 0#4) ∧ decode 0b1111000000011000#16 = .ok (.ldStVx 0#4) ∧
    decode 0b1111000100011110#16 = .ok (.addI 1#4) ∧ decode 0b1111000100101001#16 = .ok (.ldF 1#4) ∧
    decode 0b1111000100110011#16 = .ok (.ldB 1#4) ∧ decode 0b1111001001010101#16 = .ok (.storeRegs 2#4) ∧
    decode 0b1111101001100101#16 = .ok (.loadRegs 0xA#4) := by decide

theorem test_decode_reserved_slot :
    decode 0x0000#16 = .ok (.sys 0x000#12) ∧ decode 0x00E1#16 = .ok (.sys 0x0E1#12) ∧
    decode 0x00EF#16 = .ok (.sys 0x0EF#12) ∧ decode 0x01E0#16 = .ok (.sys 0x1E0#12) ∧
    decode 0x0FFF#16 = .ok (.sys 0xFFF#12) := by decide

theorem test_decode_undefined :
    decode 0x5121#16 = .error (.undefinedWord 0x5121#16) ∧ decode 0x9129#16 = .error (.undefinedWord 0x9129#16) ∧
    decode 0x8128#16 = .error (.undefinedWord 0x8128#16) ∧ decode 0x812F#16 = .error (.undefinedWord 0x812F#16) ∧
    decode 0xE19F#16 = .error (.undefinedWord 0xE19F#16) ∧ decode 0xF156#16 = .error (.undefinedWord 0xF156#16) := by
  decide

theorem test_decode_bytes_takes_two :
    decodeBytes [0x12#8, 0x34#8, 0x56#8] = .ok (.jp 0x234#12, [0x56#8]) ∧
    decodeBytes [0x12#8] = .error (.truncated 1) ∧ decodeBytes [] = .error (.truncated 0) := by decide

theorem test_decode_table_word : decodeTableWord 16 0xA2F0 = some (.ldI 0x2F0#12) ∧
    decodeTableWord 16 0x8AB8 = none ∧ decodeTableWord 8 0x1200 = some (.sys 0#12) := by decide

/-! ## Flow -/

theorem test_cls_clears : let t := cycle { flip (ready 0x00E0) 3 4 with redraw := false }
    pixel t.fb 3 4 = false ∧ t.redraw = true ∧ t.pc = 0x202#16 := by decide
theorem test_ret_pops : let t := cycle { ready 0x00EE with sp := 1, stack := State.reset.stack.set 0 0x456#16 }
    t.sp = 0 ∧ t.pc = 0x458#16 := by decide
theorem test_ret_underflow : let t := cycle { ready 0x00EE with dt := 5 }
    t.status = some (.fault (.stackUnderflow 0x200#16)) ∧ t.run = .halted (.stackUnderflow 0x200#16) ∧
    t.pc = 0x200#16 ∧ t.sp = 0 ∧ t.dt = 5 := by decide
theorem test_jp_to_odd : (cycle (ready 0x1201)).pc = 0x201#16 ∧ (cycle (ready 0x1FFF)).pc = 0xFFF#16 := by decide
theorem test_call_pushes_sixteenth : let t := cycle { ready 0x2ABC with sp := 15 }
    t.stack[15] = 0x200#16 ∧ t.sp = 16 ∧ t.pc = 0xABC#16 := by decide
theorem test_call_overflow : let t := cycle { ready 0x2ABC with sp := 16 }
    t.status = some (.fault (.stackOverflow 0x200#16)) ∧ t.sp = 16 ∧ t.pc = 0x200#16 := by decide
theorem test_jpV0_beyond_memory : (cycle (withV (ready 0xBFFF) [0xFF#8])).pc = 0x10FE#16 := by decide

/-! ## Skips -/

theorem test_seImm : (cycle ((ready 0x3A42).writeV 0xA 0x42)).pc = 0x204#16 ∧
    (cycle ((ready 0x3A42).writeV 0xA 0x43)).pc = 0x202#16 := by decide
theorem test_sneImm : (cycle ((ready 0x4A42).writeV 0xA 0x42)).pc = 0x202#16 ∧
    (cycle ((ready 0x4A42).writeV 0xA 0x43)).pc = 0x204#16 := by decide
theorem test_seReg : (cycle (withV (ready 0x5120) [0, 7, 7])).pc = 0x204#16 ∧
    (cycle (withV (ready 0x5120) [0, 7, 8])).pc = 0x202#16 := by decide
theorem test_sneReg : (cycle (withV (ready 0x9120) [0, 7, 7])).pc = 0x202#16 ∧
    (cycle (withV (ready 0x9120) [0, 7, 8])).pc = 0x204#16 := by decide
theorem test_skp_low_nibble : (cycle (press (withV (ready 0xE19E) [0, 0x1A]) 0xA)).pc = 0x204#16 ∧
    (cycle (withV (ready 0xE19E) [0, 0x0A])).pc = 0x202#16 := by decide
theorem test_sknp_low_nibble : (cycle (press (withV (ready 0xE1A1) [0, 0x1A]) 0xA)).pc = 0x202#16 ∧
    (cycle (withV (ready 0xE1A1) [0, 0x0A])).pc = 0x204#16 := by decide

/-! ## Registers and ALU -/

theorem test_ldImm : (cycle (ready 0x6A7F)).readV 0xA = 0x7F#8 ∧ (cycle (ready 0x6FAA)).readV 0xF = 0xAA#8 := by
  decide
theorem test_addImm_no_flag : let t := cycle (withV (ready 0x7105) [0, 0xFE])
    t.readV 1 = 3#8 ∧ t.readV 0xF = 0#8 ∧ (cycle ((ready 0x7FFF).writeV 0xF 1)).readV 0xF = 0#8 := by decide
theorem test_ldReg : (cycle (withV (ready 0x8120) [0, 1, 9])).readV 1 = 9#8 := by decide
theorem test_orReg_keeps_VF : let t := cycle ((withV (ready 0x8121) [0, 0x0C, 0x0A]).writeV 0xF 1)
    t.readV 1 = 0x0E#8 ∧ t.readV 0xF = 1#8 := by decide
theorem test_andReg : (cycle (withV (ready 0x8122) [0, 0x0C, 0x0A])).readV 1 = 8#8 := by decide
theorem test_xorReg : (cycle (withV (ready 0x8123) [0, 0x0C, 0x0A])).readV 1 = 6#8 ∧
    (cycle (withV (ready 0x8113) [0, 0x5A])).readV 1 = 0#8 := by decide
theorem test_addReg_carry : let t := cycle (withV (ready 0x8124) [0, 0xFF, 0x01])
    t.readV 1 = 0#8 ∧ t.readV 0xF = 1#8 ∧ (cycle (withV (ready 0x8124) [0, 0xFF, 0])).readV 0xF = 0#8 := by decide
theorem test_addReg_flag_wins : let t := cycle ((withV (ready 0x8F14) [0, 2]).writeV 0xF 0xFF)
    t.readV 0xF = 1#8 ∧ t.readV 1 = 2#8 ∧ (cycle ((withV (ready 0x81F4) [0, 0xFF]).writeV 0xF 1)).readV 1 = 0#8 := by
  decide
theorem test_subReg_borrow : let t := cycle (withV (ready 0x8125) [0, 5, 0xA])
    t.readV 1 = 0xFB#8 ∧ t.readV 0xF = 0#8 := by decide
theorem test_subReg_equal : let t := cycle (withV (ready 0x8125) [0, 0x33, 0x33])
    t.readV 1 = 0#8 ∧ t.readV 0xF = 1#8 := by decide
theorem test_shr_ignores_VY : let t := cycle (withV (ready 0x8126) [0, 4, 0xFF])
    t.readV 1 = 2#8 ∧ t.readV 0xF = 0#8 ∧ t.readV 2 = 0xFF#8 := by decide
theorem test_shr_flag_wins : (cycle ((ready 0x8F06).writeV 0xF 3)).readV 0xF = 1#8 := by decide
theorem test_subnReg_borrow : let t := cycle (withV (ready 0x8127) [0, 0xA, 5])
    t.readV 1 = 0xFB#8 ∧ t.readV 0xF = 0#8 := by decide
theorem test_subnReg_no_borrow : let t := cycle (withV (ready 0x8127) [0, 5, 0xA])
    t.readV 1 = 5#8 ∧ t.readV 0xF = 1#8 := by decide
theorem test_shl_carries_out : let t := cycle (withV (ready 0x812E) [0, 0x81, 0])
    t.readV 1 = 2#8 ∧ t.readV 0xF = 1#8 := by decide
theorem test_shl_no_carry : let t := cycle ((withV (ready 0x812E) [0, 0x40]).writeV 0xF 1)
    t.readV 1 = 0x80#8 ∧ t.readV 0xF = 0#8 := by decide

/-! ## Index and random -/

theorem test_ldI : let t := cycle (ready 0xA2F0)
    t.i = 0x2F0#16 ∧ t.pc = 0x202#16 := by decide
theorem test_rnd_draws_once : let t := cycle (ready 0xC10F)
    t.draws = 1 ∧ t.pc = 0x202#16 ∧ t.readV 2 = 0#8 := by decide

/-! ## Sprites -/

/-- The sprites of the table: 0xFF and 0x81 at 0x300, `I` there, and a place in V0 and V1. -/
def sprites (w : Nat) (x y : Byte) : State :=
  withV { withMem (ready w) 0x300 [0xFF, 0x81] with i := 0x300 } [x, y]

theorem test_drw_collision : let t := cycle (flip (sprites 0xD011 0 0) 7 0)
    pixel t.fb 6 0 = true ∧ pixel t.fb 7 0 = false ∧ pixel t.fb 8 0 = false ∧ t.readV 0xF = 1#8 := by decide
theorem test_drw_wraps : let t := cycle (sprites 0xD012 0x3C 0x1F)
    pixel t.fb 60 31 = true ∧ pixel t.fb 3 31 = true ∧ pixel t.fb 60 0 = true ∧ pixel t.fb 61 0 = false ∧
    pixel t.fb 3 0 = true ∧ t.readV 0xF = 0#8 := by decide
theorem test_drw_no_rows : let t := cycle ({ ready 0xD010 with i := 0xFFFF, redraw := false }.writeV 0xF 9)
    t.readV 0xF = 0#8 ∧ t.redraw = true ∧ t.pc = 0x202#16 ∧ t.fb = State.reset.fb := by decide
theorem test_drw_outside_memory : let t := cycle { ready 0xD012 with i := 0xFFF }
    t.status = some (.fault (.memoryFault 0x1000)) ∧ t.fb = State.reset.fb ∧ t.pc = 0x200#16 := by decide

/-! ## Class F -/

theorem test_ldVxDt_before_tick : let t := cycle { ready 0xF007 with dt := 1 }
    t.readV 0 = 1#8 ∧ t.dt = 0#8 := by decide
theorem test_ldDtVx_ticks_at_once : (cycle (withV (ready 0xF015) [5])).dt = 4#8 := by decide
theorem test_ldStVx_one_beeps : let t := cycle (withV (ready 0xF018) [1])
    t.st = 0#8 ∧ t.beep = some true := by decide
/-- From R186: a write of 0 over a running ST is no tick transition, not even where ST was 1. -/
theorem test_ldStVx_zero_is_silent : let t := cycle { ready 0xF018 with st := 1 }
    t.st = 0#8 ∧ t.beep = some false := by decide
theorem test_addI_beyond_memory : let t := cycle { withV (ready 0xF11E) [0, 1] with i := 0xFFF }
    t.i = 0x1000#16 ∧ t.readV 0xF = 1#8 ∧ t.status = some .ok := by decide
theorem test_addI_wraps : let t := cycle { withV (ready 0xF11E) [0, 2] with i := 0xFFFF }
    t.i = 1#16 ∧ t.readV 0xF = 1#8 := by decide
theorem test_ldF_unmasked : (cycle (withV (ready 0xF129) [0, 0x0A])).i = 0x32#16 ∧
    (cycle (withV (ready 0xF129) [0, 0xFF])).i = 0x4FB#16 := by decide
theorem test_ldB_157 : let t := cycle { withV (ready 0xF133) [0, 157] with i := 0x300 }
    t.mem.read 0x300 = 1#8 ∧ t.mem.read 0x301 = 5#8 ∧ t.mem.read 0x302 = 7#8 ∧ t.i = 0x300#16 := by decide
theorem test_ldB_outside_memory : let t := cycle { withV (ready 0xF133) [0, 0xFF] with i := 0xFFE }
    t.status = some (.fault (.memoryFault 0x1000)) ∧ t.mem.read 0xFFE = 0#8 ∧ t.mem.read 0xFFF = 0#8 := by decide
theorem test_storeRegs : let t := cycle { withV (ready 0xF255) [0x11, 0x22, 0x33, 0x44] with i := 0x300 }
    t.mem.readList 0x300 4 = [0x11#8, 0x22#8, 0x33#8, 0#8] ∧ t.i = 0x303#16 := by decide
theorem test_storeRegs_outside_memory : let t := cycle { withV (ready 0xFF55) [1] with i := 0xFF1 }
    t.status = some (.fault (.memoryFault 0x1000)) ∧ t.mem.read 0xFF1 = 0#8 ∧ t.i = 0xFF1#16 := by decide
theorem test_loadRegs : let t := cycle { withMem (ready 0xF265) 0x300 [0x11, 0x22, 0x33, 0x44] with i := 0x300 }
    t.readV 0 = 0x11#8 ∧ t.readV 2 = 0x33#8 ∧ t.readV 3 = 0#8 ∧ t.i = 0x303#16 := by decide
theorem test_loadRegs_last_byte : let t := cycle { withMem (ready 0xF065) 0xFFF [0x77] with i := 0xFFF }
    t.readV 0 = 0x77#8 ∧ t.i = 0x1000#16 ∧ t.status = some .ok := by decide
theorem test_ldVxK_waits : let t := cycle { ready 0xF20A with dt := 3 }
    t.status = some .awaitingKey ∧ t.pc = 0x200#16 ∧ t.readV 2 = 0#8 ∧ t.dt = 2#8 := by decide
theorem test_ldVxK_lowest : let t := cycle (press (press (ready 0xF20A) 9) 7)
    t.readV 2 = 7#8 ∧ t.pc = 0x202#16 := by decide

/-! ## Fetch, undefined words, timers, a halted engine, reset, the loader -/

theorem test_fetch_last_word : let t := cycle (withMem { State.reset with pc := 0xFFE } 0xFFE [0x60, 0x01])
    t.readV 0 = 1#8 ∧ t.pc = 0x1000#16 := by decide
theorem test_fetch_odd : let t := cycle (withMem { State.reset with pc := 0x201 } 0x201 [0x61, 0x2A])
    t.readV 1 = 0x2A#8 ∧ t.pc = 0x203#16 := by decide
theorem test_fetch_straddles_end : (cycle { State.reset with pc := 0xFFF }).status =
    some (.fault (.memoryFault 0x1000)) := by decide
theorem test_fetch_outside : (cycle { State.reset with pc := 0x10FE }).status =
    some (.fault (.memoryFault 0x10FE)) := by decide
theorem test_undefined_ticks : let t := cycle { ready 0x8018 with dt := 2, st := 2 }
    t.status = some (.decodeError 0x8018#16) ∧ t.pc = 0x200#16 ∧ t.dt = 1#8 ∧ t.st = 1#8 ∧
    t.beep = some false ∧ t.run = .running := by decide
theorem test_sys_reports : let t := cycle { ready 0x0123 with st := 1 }
    t.status = some (.decodeError 0x0123#16) ∧ t.pc = 0x200#16 ∧ t.beep = some true := by decide
theorem test_empty_memory_is_undefined : (cycle State.reset).status = some (.decodeError 0#16) ∧
    (cycle State.reset).pc = 0x200#16 := by decide
theorem test_halted_engine : let t := cycle { ready 0x6001 with run := .halted (.stackUnderflow 0x200), dt := 5 }
    t.status = some (.fault (.stackUnderflow 0x200#16)) ∧ t.dt = 5#8 ∧ t.readV 0 = 0#8 ∧ t.pc = 0x200#16 := by decide
theorem test_fetch_word_sets_halted_engine_running :
    let s := ({ State.reset with run := .halted (.memoryFault 0x1000), pc := 0x1000 } : State).withFetchWord 16 0x6A7F
    (cycle s).readV 0xA = 0x7F#8 ∧ (cycle s).pc = 0x202#16 := by decide
theorem test_reset_memory_is_zero_past_the_font : State.reset.mem.read 80 = 0#8 ∧
    State.reset.mem.read 0x1FF = 0#8 ∧ State.reset.mem.read 0xFFF = 0#8 := by decide
theorem test_write_of_background_unlists : ((State.reset.mem.write 0x300 5#8).write 0x300 0#8) = [] := by decide
theorem test_loader_limit : (∃ t, State.reset.loadRom (List.replicate 3584 0#8) = .ok t) ∧
    State.reset.loadRom (List.replicate 3585 0#8) = .error .romTooLarge := by
  constructor
  · exact ⟨_, if_pos (by rw [List.length_replicate])⟩
  · exact if_neg (by rw [List.length_replicate]; decide)
theorem test_no_cycle_after_failed_load :
    (Session.powerOn.run [.load none, .cycle]).isNone = true ∧
    (Session.powerOn.run [.load (some [0x60, 0x01]), .cycle]).isSome = true ∧
    (Session.powerOn.run [.load (some []), .load (some [])]).isNone = true := by decide

/-! ## Witnesses: for every statement with hypotheses, concrete inputs that meet all of them, at the
ends of their ranges. -/

/-- `JumpSetsPcToAddress` and `IndexedJumpAddsV0`: the premises of their last clauses, at both ends. -/
theorem witness_IndexedJumpAddsV0 : (0xFFF#12 : Addr12) = 0xFFF#12 ∧
    0xFFE < (0xFFF#12).toNat + (State.reset.readV 0#4).toNat ∧
    0xFFE < (0xFFF#12).toNat + ((withV State.reset [0xFF]).readV 0#4).toNat := by decide

/-- `CallPushesItsAddressOrOverflows`: its two clauses, at both ends of the first. -/
theorem witness_CallPushesItsAddressOrOverflows : State.reset.sp.val < 16 ∧
    ({ State.reset with sp := 15 } : State).sp.val < 16 ∧ ({ State.reset with sp := 16 } : State).sp.val = 16 := by
  decide

/-- `ReturnGoesPastTheCallOrUnderflows`: its two clauses, at both ends of the first. -/
theorem witness_ReturnGoesPastTheCallOrUnderflows :
    ({ State.reset with sp := 1 } : State).sp.val = (0 : Fin 16).val + 1 ∧
    ({ State.reset with sp := 16 } : State).sp.val = (15 : Fin 16).val + 1 ∧ State.reset.sp.val = 0 := by decide

/-- `CallThenReturnComesBack`. -/
theorem witness_CallThenReturnComesBack : ({ State.reset with sp := 15 } : State).sp.val < 16 := by decide

/-- `KeyTestsSkipOneWord`: a register below 16 and one above. -/
theorem witness_KeyTestsSkipOneWord : (0xA : Fin 16).val = ((withV State.reset [0x0A]).readV 0).toNat % 16 ∧
    (0xF : Fin 16).val = ((withV State.reset [0xFF]).readV 0).toNat % 16 := by decide

/-- `AluFamilyTouchesOnlyRegisters`. -/
theorem witness_AluFamilyTouchesOnlyRegisters : Instr.shl 0#4 1#4 ∈ [Instr.ldImm 0#4 0#8, .addImm 0#4 0#8,
    .ldReg 0#4 1#4, .orReg 0#4 1#4, .andReg 0#4 1#4, .xorReg 0#4 1#4, .addReg 0#4 1#4, .subReg 0#4 1#4,
    .shr 0#4 1#4, .subnReg 0#4 1#4, .shl 0#4 1#4] := by decide

/-- `DrawFlipsCoveredPixels`: no rows anywhere, and the last rows that fit. -/
theorem witness_DrawFlipsCoveredPixels :
    (0#4 = 0#4 ∨ ({ State.reset with i := 0xFFFF } : State).i.toNat + (0#4).toNat ≤ 4096) ∧
    (15#4 = 0#4 ∨ ({ State.reset with i := 0xFF1 } : State).i.toNat + (15#4).toNat ≤ 4096) := by decide

/-- `DrawTwiceRestoresScreen`, with its inner premise: on the clear screen every covered pixel is clear. -/
theorem witness_DrawTwiceRestoresScreen : (0#4 ≠ 0xF#4) ∧ (1#4 ≠ 0xF#4) ∧
    (1#4 = 0#4 ∨ (sprites 0xD011 0 0).i.toNat + (1#4).toNat ≤ 4096) ∧
    (∀ px py, SpriteCovers (spriteRow (sprites 0xD011 0 0)) (1#4).toNat ((sprites 0xD011 0 0).readV 0#4)
      ((sprites 0xD011 0 0).readV 1#4) px py → pixel (sprites 0xD011 0 0).fb px py = false) ∧
    (∃ r : Fin 16, r.val < (1#4).toNat ∧ spriteRow (sprites 0xD011 0 0) r.val ≠ 0#8) := by
  refine ⟨by decide, by decide, by decide, fun px py _ => ?_, ⟨0, by decide, by decide⟩⟩
  have h : (sprites 0xD011 0 0).fb = Vector.replicate 32 0#64 := by decide
  rw [h]
  simp [pixel]

/-- A state whose `I` is the last address from which `n` bytes fit. -/
def lastFit (n : Nat) : State := { State.reset with i := BitVec.ofNat 16 (4096 - n) }

/-- `DecimalDigitsAreStored`. -/
theorem witness_DecimalDigitsAreStored : MemCanonical (lastFit 3) ∧ (lastFit 3).i.toNat + 3 ≤ 4096 :=
  ⟨rfl, by decide⟩

/-- `StoreRegistersWritesRun`: one register and all sixteen. -/
theorem witness_StoreRegistersWritesRun : MemCanonical (lastFit 1) ∧
    (lastFit 1).i.toNat + ((0#4).toNat + 1) ≤ 4096 ∧ MemCanonical (lastFit 16) ∧
    (lastFit 16).i.toNat + ((15#4).toNat + 1) ≤ 4096 := ⟨rfl, by decide, rfl, by decide⟩

/-- `LoadRegistersReadsRun`: one register and all sixteen. -/
theorem witness_LoadRegistersReadsRun : (lastFit 1).i.toNat + ((0#4).toNat + 1) ≤ 4096 ∧
    (lastFit 16).i.toNat + ((15#4).toNat + 1) ≤ 4096 := by decide

/-- `TransfersOutsideMemoryFault`: each clause one byte past the last transfer that fits. -/
theorem witness_TransfersOutsideMemoryFault : (1#4 ≠ 0#4 ∧ 4096 < (lastFit 0).i.toNat + (1#4).toNat) ∧
    4096 < (lastFit 2).i.toNat + 3 ∧ 4096 < (lastFit 0).i.toNat + ((0#4).toNat + 1) ∧
    4096 < (lastFit 15).i.toNat + ((15#4).toNat + 1) := by decide

/-- `KeyWaitTakesLowestKey`: two keys down, the last key alone, and none. -/
theorem witness_KeyWaitTakesLowestKey :
    ((press (press State.reset 9) 7).keys[7] = true ∧
      ∀ j : Fin 16, j < 7 → (press (press State.reset 9) 7).keys[j.val] = false) ∧
    ((press State.reset 15).keys[15] = true ∧ ∀ j : Fin 16, j < 15 → (press State.reset 15).keys[j.val] = false) ∧
    (∀ k : Fin 16, State.reset.keys[k.val] = false) := by decide

/-- The state in which a word is ready can fetch it. -/
theorem canFetch_ready (w : Nat) : CanFetch (ready w) :=
  ⟨rfl, by show (0x200#16).toNat ≤ 0xFFE; decide⟩

/-- `UndefinedWordReportsAndTicks` and `UndefinedWordIsLivelock`: an undefined word, and a word of the
reserved slot. -/
theorem witness_UndefinedWordReportsAndTicks :
    (CanFetch (ready 0x8018) ∧ ∃ e, decode (wordAtPc (ready 0x8018)) = .error e) ∧
    (CanFetch (ready 0x0123) ∧ ∃ nnn, decode (wordAtPc (ready 0x0123)) = .ok (.sys nnn)) :=
  ⟨⟨canFetch_ready _, .undefinedWord 0x8018#16, by decide⟩, ⟨canFetch_ready _, 0x123#12, by decide⟩⟩

/-- `UndefinedWordIsLivelock`: empty memory, as reset leaves it. -/
theorem witness_UndefinedWordIsLivelock : CanFetch State.reset ∧
    ((∃ e, decode (wordAtPc State.reset) = .error e) ∨ ∃ nnn, decode (wordAtPc State.reset) = .ok (.sys nnn)) :=
  ⟨⟨rfl, by decide⟩, .inr ⟨0#12, by decide⟩⟩

/-- `FetchIsBigEndian`: the last address that it covers. -/
theorem witness_FetchIsBigEndian : ({ State.reset with pc := 0xFFE } : State).pc.toNat ≤ 0xFFE := by decide

/-- `StepExecutesDecodedInstruction`: an instruction that completes, and one that raises a fault. -/
theorem witness_StepExecutesDecodedInstruction :
    (CanFetch (ready 0x6A7F) ∧ decode (wordAtPc (ready 0x6A7F)) = .ok (.ldImm 0xA#4 0x7F#8)) ∧
    (CanFetch (ready 0x00EE) ∧ decode (wordAtPc (ready 0x00EE)) = .ok .ret) :=
  ⟨⟨canFetch_ready _, by decide⟩, ⟨canFetch_ready _, by decide⟩⟩

/-- `FetchOutsideMemoryFaults`: the two first addresses it covers. -/
theorem witness_FetchOutsideMemoryFaults :
    (({ State.reset with pc := 0xFFF } : State).run = .running ∧
      0xFFF ≤ ({ State.reset with pc := 0xFFF } : State).pc.toNat) ∧
    (({ State.reset with pc := 0x1000 } : State).run = .running ∧
      0xFFF ≤ ({ State.reset with pc := 0x1000 } : State).pc.toNat) := by decide

/-- `TimerWriteTicksInItsCycle`: its two clauses. -/
theorem witness_TimerWriteTicksInItsCycle :
    (CanFetch (ready 0xF015) ∧ decode (wordAtPc (ready 0xF015)) = .ok (.ldDtVx 0#4)) ∧
    (CanFetch (ready 0xFF18) ∧ decode (wordAtPc (ready 0xFF18)) = .ok (.ldStVx 0xF#4)) :=
  ⟨⟨canFetch_ready _, by decide⟩, ⟨canFetch_ready _, by decide⟩⟩

/-- `BeepOnlyOnTickFromOneToZero`: a beep of each kind. -/
theorem witness_BeepOnlyOnTickFromOneToZero :
    (step { ready 0x6000 with st := 1 } = .next (cycle { ready 0x6000 with st := 1 }) ∧
      (cycle { ready 0x6000 with st := 1 }).beep = some true ∧
      decode (wordAtPc { ready 0x6000 with st := 1 }) = .ok (.ldImm 0#4 0#8)) ∧
    (step (withV (ready 0xF018) [1]) = .next (cycle (withV (ready 0xF018) [1])) ∧
      (cycle (withV (ready 0xF018) [1])).beep = some true) :=
  ⟨⟨rfl, by decide, by decide⟩, ⟨rfl, by decide⟩⟩

/-- `NoFailureIsSilent`: a cycle of each of its statuses. -/
theorem witness_NoFailureIsSilent :
    (step (ready 0x6A7F) = .next (cycle (ready 0x6A7F)) ∧ (cycle (ready 0x6A7F)).status = some .ok) ∧
    (step (ready 0xF20A) = .next (cycle (ready 0xF20A)) ∧
      (cycle (ready 0xF20A)).status = some .awaitingKey) ∧
    (step (ready 0x0123) = .next (cycle (ready 0x0123)) ∧
      (cycle (ready 0x0123)).status = some (.decodeError 0x0123#16)) ∧
    (step (ready 0x00EE) = .next (cycle (ready 0x00EE)) ∧
      (cycle (ready 0x00EE)).status = some (.fault (.stackUnderflow 0x200#16))) :=
  ⟨⟨rfl, by decide⟩, ⟨rfl, by decide⟩, ⟨rfl, by decide⟩, ⟨rfl, by decide⟩⟩

/-- `FatalFaultsArePrecise`: a fault of each cause, and one of the fetch. -/
theorem witness_FatalFaultsArePrecise :
    ((ready 0x00EE).run = .running ∧ step (ready 0x00EE) = .next (cycle (ready 0x00EE)) ∧
      (cycle (ready 0x00EE)).run = .halted (.stackUnderflow 0x200#16)) ∧
    (step { ready 0x2ABC with sp := 16 } = .next (cycle { ready 0x2ABC with sp := 16 }) ∧
      (cycle { ready 0x2ABC with sp := 16 }).run = .halted (.stackOverflow 0x200#16)) ∧
    (step { ready 0xF055 with i := 0x1000 } = .next (cycle { ready 0xF055 with i := 0x1000 }) ∧
      (cycle { ready 0xF055 with i := 0x1000 }).run = .halted (.memoryFault 0x1000)) ∧
    (step { State.reset with pc := 0xFFF } = .next (cycle { State.reset with pc := 0xFFF }) ∧
      (cycle { State.reset with pc := 0xFFF }).run = .halted (.memoryFault 0x1000)) :=
  ⟨⟨rfl, rfl, by decide⟩, ⟨rfl, by decide⟩, ⟨rfl, by decide⟩, ⟨rfl, by decide⟩⟩

/-- `HaltedEngineStaysHalted`. -/
theorem witness_HaltedEngineStaysHalted :
    (cycle (ready 0x00EE)).run = .halted (.stackUnderflow 0x200#16) := by decide

/-- `OnlyReinitializeEndsHalt`: a halted machine, and an act of each side of the conclusion. -/
theorem witness_OnlyReinitializeEndsHalt :
    ∃ x y z : Session, x.machine.run = .halted (.stackUnderflow 0x200#16) ∧ x.act .cycle = some y ∧
      x.act .reinitialize = some z :=
  ⟨⟨cycle (ready 0x00EE), .running⟩, _, _, by decide, rfl, rfl⟩

/-- `InstructionsWriteOnlyTheirFields`: an instruction that completes, and one that raises a fault. -/
theorem witness_InstructionsWriteOnlyTheirFields : (∃ t, exec .cls State.reset = .next t) ∧
    (∃ t, exec .ret State.reset = .next t ∧ t.run = .halted (.stackUnderflow 0x200#16)) :=
  ⟨⟨_, rfl⟩, ⟨_, rfl, by decide⟩⟩

/-- `RegistersChangeOnlyAsDestinations`: a register above VX in `FX65`, and VF in `8XY1`. -/
theorem witness_RegistersChangeOnlyAsDestinations :
    ((∃ t, exec (.loadRegs 2#4) (lastFit 3) = .next t) ∧ mayWriteReg (.loadRegs 2#4) 3#4 = false) ∧
    ((∃ t, exec (.orReg 1#4 2#4) State.reset = .next t) ∧ mayWriteReg (.orReg 1#4 2#4) 0xF#4 = false) :=
  ⟨⟨⟨_, rfl⟩, by decide⟩, ⟨⟨_, rfl⟩, by decide⟩⟩

/-- `SoundTimerIsNeverRead`: two runs that differ in ST and in the beep. -/
theorem witness_SoundTimerIsNeverRead : ∃ t u, step (ready 0x6A7F) = .next t ∧
    step { ready 0x6A7F with st := 1 } = .next u ∧ t.beep ≠ u.beep := ⟨_, _, rfl, rfl, by decide⟩

/-- `OutputsAreNeverRead`: two runs that differ in all three. -/
theorem witness_OutputsAreNeverRead : ∃ t u, step (ready 0x6A7F) = .next t ∧
    step { ready 0x6A7F with redraw := false, status := some .awaitingKey, beep := some true } = .next u ∧
    t.redraw ≠ u.redraw := ⟨_, _, rfl, rfl, by decide⟩

/-- `DeadStackEntriesAreNeverRead`: a dead entry that differs below a live one. -/
theorem witness_DeadStackEntriesAreNeverRead :
    (∀ k : Fin 16, k.val < ({ ready 0x00EE with sp := 1 } : State).sp.val →
      (State.reset.stack.set 1 0x456#16)[k.val] = ({ ready 0x00EE with sp := 1 } : State).stack[k.val]) ∧
    ∃ t u, step { ready 0x00EE with sp := 1 } = .next t ∧
      step { ({ ready 0x00EE with sp := 1 } : State) with stack := State.reset.stack.set 1 0x456#16 } = .next u :=
  ⟨by decide, _, _, rfl, rfl⟩

/-- `OnlyKeyInstructionsReadKeypad`. -/
theorem witness_OnlyKeyInstructionsReadKeypad :
    ∀ x, Instr.cls ≠ .skp x ∧ Instr.cls ≠ .sknp x ∧ Instr.cls ≠ .ldVxK x := by decide

/-- `StepKeepsPcBounded`: from reset, and from the last word of memory with an address held. -/
theorem witness_StepKeepsPcBounded : (PcBounded State.reset ∧ ∃ t, step State.reset = .next t) ∧
    (PcBounded { State.reset with pc := 0xFFE, sp := 1, stack := State.reset.stack.set 0 0xFFE#16 } ∧
      ∃ t, step { State.reset with pc := 0xFFE, sp := 1, stack := State.reset.stack.set 0 0xFFE#16 } = .next t) := by
  refine ⟨⟨⟨by decide, by decide⟩, ⟨_, rfl⟩⟩, ⟨⟨by decide, by decide⟩, ⟨_, rfl⟩⟩⟩

/-- `StepKeepsMemoryCanonical`: a cycle that stores. -/
theorem witness_StepKeepsMemoryCanonical :
    MemCanonical { withV (ready 0xF255) [1, 2, 3] with i := 0x300 } ∧
    ∃ t, step { withV (ready 0xF255) [1, 2, 3] with i := 0x300 } = .next t ∧ t.mem.read 0x302 = 3#8 :=
  ⟨by show (_ : Bool) = true; decide, _, rfl, by decide⟩

/-- `FinishedProgramStaysFinished`. -/
theorem witness_FinishedProgramStaysFinished : Finished (ready 0x1200) := ⟨canFetch_ready _, by decide⟩

/-- `StoreIsVisibleToNextFetch`: the last two bytes of memory. -/
theorem witness_StoreIsVisibleToNextFetch : MemCanonical (lastFit 2) ∧ 1#4 ≤ 1#4 ∧
    (lastFit 2).i.toNat + ((1#4).toNat + 1) ≤ 4096 := ⟨rfl, by decide, by decide⟩

/-- `DecodeInvertsEncode`: a term that is well-formed only by the check, and one with every field. -/
theorem witness_DecodeInvertsEncode : (Instr.sys 0x0E1#12).wellFormed = true ∧
    (Instr.drw 1#4 2#4 5#4).wellFormed = true := by decide

/-- `EncodeInvertsDecode`. -/
theorem witness_EncodeInvertsDecode : decode 0x8ABE#16 = .ok (.shl 0xA#4 0xB#4) := by decide

/-- `DecoderFollowsOpcodeMap`: a defined word, and one of the reserved slot. -/
theorem witness_DecoderFollowsOpcodeMap :
    (opcodeRow (.shl 0 0) ∈ definedRows ∧ (opcodeRow (.shl 0 0)).covers 0x8ABE#16 = true) ∧
    (0x0123#16 &&& 0xF000#16 = 0#16 ∧ ∀ p ∈ definedRows, p.covers 0x0123#16 = false) := by decide

/-- `ReinitializeIsIdempotent`: two states with the same keypad that differ elsewhere. -/
theorem witness_ReinitializeIsIdempotent : State.reset.keys = (cycle (ready 0x6A7F)).keys ∧
    State.reset ≠ cycle (ready 0x6A7F) := by decide

/-- `LoaderCopiesImageVerbatim`: the longest image that fits, and one byte more. -/
theorem witness_LoaderCopiesImageVerbatim : MemCanonical State.reset ∧
    (List.replicate 3584 0#8).length ≤ 3584 ∧ 3584 < (List.replicate 3585 0#8).length :=
  ⟨rfl, by rw [List.length_replicate], by rw [List.length_replicate]; decide⟩

/-- `FirstCycleFetchesImageStart`: the longest rest of an image. -/
theorem witness_FirstCycleFetchesImageStart : (List.replicate 3582 0#8).length ≤ 3582 := by
  rw [List.length_replicate]

end Sys2Proof.Tests
end

