-- ==== Sys2Proof/Proofs/Memory.lean ====
section
/-! The obligations of 20_memory.md: the byte order of the fetch. -/

namespace Sys2Proof.Machine

/-- Settles O31: a PC of at most 0xFFE fetches the word at PC, which is its two bytes joined with the
lower address in the high half (R40). -/
theorem fetchIsBigEndian : Obligations.FetchIsBigEndian := by
  intro s hpc
  have hfetch : fetch s = .ok (wordAtPc s) := by rw [fetch_spec, if_pos hpc]
  exact ⟨wordAtPc s, hfetch, toNat_wordOfBytes _ _⟩

end Sys2Proof.Machine
end

/-! The obligations of 41_flow.md: clear screen and the two jumps (R100, R102, R104). -/

namespace Sys2Proof.Machine

/-! ## Frames: what an update of the state leaves as it was -/

theorem SameField.trans {f : Field} {s t u : State} (hst : SameField f s t) (htu : SameField f t u) :
    SameField f s u := by
  cases f
  case v | stack | mem | keys => exact fun k => (htu k).trans (hst k)
  case fb => exact fun x y => (htu x y).trans (hst x y)
  all_goals exact Eq.trans htu hst

/-- Two updates one after the other change no field outside their two lists. -/
theorem UnchangedBut.trans {changed changed' : List Field} {s t u : State}
    (hst : UnchangedBut changed s t) (htu : UnchangedBut changed' t u) :
    UnchangedBut (changed ++ changed') s u := by
  intro f hf
  have hf₁ : f ∉ changed := fun h => hf (List.mem_append_left _ h)
  have hf₂ : f ∉ changed' := fun h => hf (List.mem_append_right _ h)
  exact (hst f hf₁).trans (htu f hf₂)

theorem unchangedBut_setPc (s : State) (w : Word) : UnchangedBut [.pc] s (s.setPc w) := by
  intro f hf
  cases f
  case pc => exact absurd (List.mem_singleton_self _) hf
  all_goals simp [SameField]

theorem unchangedBut_advance (s : State) : UnchangedBut [.pc] s s.advance :=
  unchangedBut_setPc s _

theorem unchangedBut_present (s : State) (fb : Framebuffer) :
    UnchangedBut [.fb, .redraw] s (s.present fb) := by
  intro f hf
  cases f
  case fb | redraw => simp at hf
  all_goals simp [SameField]

/-! ## Decoding of the jumps -/

/-- `DecodesTo` speaks of a word by its number, `decode` of the word itself. -/
theorem decodesTo_of_toNat {n : Nat} {w : Word} {i : Instr} (hn : w.toNat = n) (hw : decode w = .ok i) :
    DecodesTo n i := by
  rw [DecodesTo, ← hn, BitVec.ofNat_toNat, BitVec.setWidth_eq, hw]

theorem decode_formatFA_jp (nnn : Addr12) : decode (formatFA 0x1#4 nnn) = .ok (.jp nnn) := by
  obtain ⟨hC, hNNN⟩ := fields_formatFA 0x1#4 nnn
  simp only [decode, hC, hNNN]

theorem decode_formatFA_jpV0 (nnn : Addr12) : decode (formatFA 0xB#4 nnn) = .ok (.jpV0 nnn) := by
  obtain ⟨hC, hNNN⟩ := fields_formatFA 0xB#4 nnn
  simp only [decode, hC, hNNN]

/-! ## What the three instructions and the fetch after a jump answer -/

theorem exec_cls (s : State) : exec .cls s = .next (s.present clearFramebuffer).advance := rfl

theorem exec_jp (nnn : Addr12) (s : State) : exec (.jp nnn) s = .next (s.setPc (addressOperand nnn)) := rfl

theorem exec_jpV0 (nnn : Addr12) (s : State) :
    exec (.jpV0 nnn) s = .next (s.setPc (indexedTarget nnn (s.readV 0#4))) := rfl

/-- A PC above 0xFFE cannot be fetched (R81, R172). -/
theorem fetch_of_pc_gt {s : State} (hpc : 0xFFE < s.pc.toNat) :
    fetch s = .error (.memoryFault (max s.pc.toNat 0x1000)) := by
  rw [fetch_spec, if_neg (by omega)]

/-! ## The obligations -/

/-- Settles O1: `00E0` is an update of the framebuffer and `REDRAW` followed by one of PC, so its frame
is the two frames together. -/
theorem clearScreenClearsPixelsAndRaisesRedraw : Obligations.ClearScreenClearsPixelsAndRaisesRedraw := by
  have hdecode : DecodesTo 0x00E0 .cls := rfl
  refine ⟨hdecode, fun s => ⟨_, exec_cls s, pixel_clear, rfl, rfl, ?_⟩⟩
  exact (unchangedBut_present s _).trans (unchangedBut_advance _)

/-- Settles O2: the zero-extended target is NNN itself, and only the target 0xFFF lies above the last
address that can be fetched. -/
theorem jumpSetsPcToAddress : Obligations.JumpSetsPcToAddress := by
  intro nnn s
  have hpc : (s.setPc (addressOperand nnn)).pc.toNat = nnn.toNat := addressOperand_toNat nnn
  refine ⟨decodesTo_of_toNat (toNat_formatFA 0x1#4 nnn) (decode_formatFA_jp nnn), _, exec_jp nnn s, hpc,
    unchangedBut_setPc s _, ?_⟩
  rintro rfl
  rw [fetch_of_pc_gt (by rw [hpc]; decide), hpc]
  rfl

/-- Settles O3: the 16-bit sum never wraps, so PC holds NNN + V0 itself, and a fetch above 0xFFE records
that sum or 0x1000, whichever is greater. -/
theorem indexedJumpAddsV0 : Obligations.IndexedJumpAddsV0 := by
  intro nnn s
  have hpc : (s.setPc (indexedTarget nnn (s.readV 0#4))).pc.toNat = nnn.toNat + (s.readV 0#4).toNat :=
    indexedTarget_toNat nnn _
  refine ⟨decodesTo_of_toNat (toNat_formatFA 0xB#4 nnn) (decode_formatFA_jpV0 nnn), _, exec_jpV0 nnn s,
    hpc, unchangedBut_setPc s _, ?_⟩
  intro hsum
  rw [fetch_of_pc_gt (by rwa [hpc]), hpc]

end Sys2Proof.Machine

/-! The obligations of 43_register_alu.md about results without a flag, and the frame of the whole family
(R120 to R125, R133). -/

namespace Sys2Proof.Machine

/-! ## Frames of the register writes -/

theorem unchangedBut_writeV (s : State) (r : Reg) (b : Byte) : UnchangedBut [.v] s (s.writeV r b) := by
  intro f hf
  cases f
  case v => exact absurd (List.mem_singleton_self _) hf
  all_goals simp [SameField]

/-- The flag write is a second register write, so it adds no field to the frame of the first. -/
theorem unchangedBut_writeResultAndFlag (s : State) (x : Reg) (b : Byte) (flag : Bool) :
    UnchangedBut [.v] s (s.writeResultAndFlag x b flag) := by
  intro f hf
  have hresult := unchangedBut_writeV s x b f hf
  exact hresult.trans (unchangedBut_writeV (s.writeV x b) flagReg (flagByte flag) f hf)

theorem regsUnchangedBut_writeV (s : State) (x : Reg) (b : Byte) :
    RegsUnchangedBut [x] s (s.writeV x b) := by
  intro r hr
  rw [State.readV_writeV, if_neg (by simpa using hr)]

theorem regsUnchangedBut_writeResultAndFlag (s : State) (x : Reg) (b : Byte) (flag : Bool) :
    RegsUnchangedBut [x, 0xF#4] s (s.writeResultAndFlag x b flag) := by
  intro r hr
  obtain ⟨hx, hflag⟩ : r ≠ x ∧ r ≠ flagReg := by simpa [flagReg] using hr
  rw [State.readV_writeResultAndFlag, if_neg hflag, if_neg hx]

/-! ## The two ways in which an instruction of the family ends (R133) -/

/-- An instruction that ends in `finishResult` writes that one register. -/
theorem writesRegister_of_exec {i : Instr} {s : State} {x : Reg} {b : Byte}
    (h : exec i s = finishResult x b s) : WritesRegister i s x b := by
  refine ⟨(s.writeV x b).advance, h, s.readV_writeV_self x b, regsUnchangedBut_writeV s x b, rfl, ?_⟩
  exact (unchangedBut_writeV s x b).trans (unchangedBut_advance _)

/-- An instruction that ends in `finishResultAndFlag` writes its result, and its flag over it. -/
theorem writesResultAndFlag_of_exec {i : Instr} {s : State} {x : Reg} {b : Byte} {flag : Bool}
    (h : exec i s = finishResultAndFlag x b flag s) : WritesResultAndFlag i s x b flag := by
  have hflag : (s.writeResultAndFlag x b flag).readV flagReg = flagByte flag := by
    rw [State.readV_writeResultAndFlag, if_pos rfl]
  have hresult (hx : x ≠ flagReg) : (s.writeResultAndFlag x b flag).readV x = b := by
    rw [State.readV_writeResultAndFlag, if_neg hx, if_pos rfl]
  refine ⟨(s.writeResultAndFlag x b flag).advance, h, hflag, hresult,
    regsUnchangedBut_writeResultAndFlag s x b flag, rfl, ?_⟩
  exact (unchangedBut_writeResultAndFlag s x b flag).trans (unchangedBut_advance _)

theorem WritesRegister.frame {i : Instr} {s : State} {x : Reg} {b : Byte} (h : WritesRegister i s x b) :
    ∃ t, exec i s = .next t ∧ t.pc = s.pc + 2#16 ∧ UnchangedBut [.v, .pc] s t := by
  obtain ⟨t, hexec, -, -, hpc, hframe⟩ := h
  exact ⟨t, hexec, hpc, hframe⟩

theorem WritesResultAndFlag.frame {i : Instr} {s : State} {x : Reg} {b : Byte} {flag : Bool}
    (h : WritesResultAndFlag i s x b flag) :
    ∃ t, exec i s = .next t ∧ t.pc = s.pc + 2#16 ∧ UnchangedBut [.v, .pc] s t := by
  obtain ⟨t, hexec, -, -, -, hpc, hframe⟩ := h
  exact ⟨t, hexec, hpc, hframe⟩

/-! ## Which of the two each instruction ends in -/

theorem exec_ldImm (x : Reg) (nn : Byte) (s : State) : exec (.ldImm x nn) s = finishResult x nn s := rfl

theorem exec_addImm (x : Reg) (nn : Byte) (s : State) :
    exec (.addImm x nn) s = finishResult x (s.readV x + nn) s := by
  rw [← add8_eq]
  rfl

theorem exec_ldReg (x y : Reg) (s : State) : exec (.ldReg x y) s = finishResult x (s.readV y) s := rfl

theorem exec_orReg (x y : Reg) (s : State) :
    exec (.orReg x y) s = finishResult x (s.readV x ||| s.readV y) s := rfl

theorem exec_andReg (x y : Reg) (s : State) :
    exec (.andReg x y) s = finishResult x (s.readV x &&& s.readV y) s := rfl

theorem exec_xorReg (x y : Reg) (s : State) :
    exec (.xorReg x y) s = finishResult x (s.readV x ^^^ s.readV y) s := rfl

theorem exec_addReg (x y : Reg) (s : State) : exec (.addReg x y) s =
    finishResultAndFlag x (add8 (s.readV x) (s.readV y)) (carry (s.readV x) (s.readV y)) s := rfl

theorem exec_subReg (x y : Reg) (s : State) : exec (.subReg x y) s =
    finishResultAndFlag x (sub8 (s.readV x) (s.readV y)) (noBorrow (s.readV x) (s.readV y)) s := rfl

theorem exec_shr (x y : Reg) (s : State) : exec (.shr x y) s =
    finishResultAndFlag x (shiftRight8 (s.readV x)) (shiftedOutLow (s.readV x)) s := rfl

theorem exec_subnReg (x y : Reg) (s : State) : exec (.subnReg x y) s =
    finishResultAndFlag x (sub8 (s.readV y) (s.readV x)) (noBorrow (s.readV y) (s.readV x)) s := rfl

theorem exec_shl (x y : Reg) (s : State) : exec (.shl x y) s =
    finishResultAndFlag x (shiftLeft8 (s.readV x)) (shiftedOutHigh (s.readV x)) s := rfl

/-! ## Decoding of classes 6, 7 and 8 -/

theorem decode_formatFXK_ldImm (x : Reg) (nn : Byte) :
    decode (formatFXK 0x6#4 x nn) = .ok (.ldImm x nn) := by
  obtain ⟨hC, hX, hNN⟩ := fields_formatFXK 0x6#4 x nn
  simp only [decode, hC, hX, hNN]

theorem decode_formatFXK_addImm (x : Reg) (nn : Byte) :
    decode (formatFXK 0x7#4 x nn) = .ok (.addImm x nn) := by
  obtain ⟨hC, hX, hNN⟩ := fields_formatFXK 0x7#4 x nn
  simp only [decode, hC, hX, hNN]

theorem decode_formatFXY_class8 (x y : Reg) (n : Nibble) :
    decode (formatFXY 0x8#4 x y n) = decodeClass8 (formatFXY 0x8#4 x y n) := by
  obtain ⟨hC, -⟩ := fields_formatFXY 0x8#4 x y n
  simp only [decode, hC]

theorem decodeClass8_formatFXY_ldReg (c : Nibble) (x y : Reg) :
    decodeClass8 (formatFXY c x y 0x0#4) = .ok (.ldReg x y) := by
  simp only [decodeClass8, fields_formatFXY]

theorem decodeClass8_formatFXY_orReg (c : Nibble) (x y : Reg) :
    decodeClass8 (formatFXY c x y 0x1#4) = .ok (.orReg x y) := by
  simp only [decodeClass8, fields_formatFXY]

theorem decodeClass8_formatFXY_andReg (c : Nibble) (x y : Reg) :
    decodeClass8 (formatFXY c x y 0x2#4) = .ok (.andReg x y) := by
  simp only [decodeClass8, fields_formatFXY]

theorem decodeClass8_formatFXY_xorReg (c : Nibble) (x y : Reg) :
    decodeClass8 (formatFXY c x y 0x3#4) = .ok (.xorReg x y) := by
  simp only [decodeClass8, fields_formatFXY]

/-- A word of class 8 by its number: class and low nibble make `base`, X and Y stand between (R62). -/
theorem decodesTo_of_decodeClass8 {base : Nat} {x y : Reg} {n : Nibble} {i : Instr}
    (hbase : base = 0x8000 + n.toNat) (h : decodeClass8 (formatFXY 0x8#4 x y n) = .ok i) :
    DecodesTo (base + x.toNat * 0x100 + y.toNat * 0x10) i := by
  have hclass : (0x8#4).toNat = 8 := rfl
  refine decodesTo_of_toNat ?_ ((decode_formatFXY_class8 x y n).trans h)
  rw [toNat_formatFXY, hclass]
  omega

/-! ## The obligations -/

/-- Settles O9: `6XNN` ends in one register write, of NN itself. -/
theorem loadImmediateWritesConstant : Obligations.LoadImmediateWritesConstant := fun x nn s =>
  ⟨decodesTo_of_toNat (toNat_formatFXK 0x6#4 x nn) (decode_formatFXK_ldImm x nn),
    writesRegister_of_exec (exec_ldImm x nn s)⟩

/-- Settles O10: `7XNN` ends in one register write, of the sum narrowed to a byte. -/
theorem addImmediateWrapsWithoutFlag : Obligations.AddImmediateWrapsWithoutFlag := fun x nn s =>
  ⟨decodesTo_of_toNat (toNat_formatFXK 0x7#4 x nn) (decode_formatFXK_addImm x nn),
    writesRegister_of_exec (exec_addImm x nn s)⟩

/-- Settles O11: `8XY0` ends in one register write, of VY as it was read before. -/
theorem copyWritesSourceRegister : Obligations.CopyWritesSourceRegister := fun x y s =>
  ⟨decodesTo_of_decodeClass8 rfl (decodeClass8_formatFXY_ldReg 0x8#4 x y),
    writesRegister_of_exec (exec_ldReg x y s)⟩

/-- Settles O12: the three bitwise operations differ in the low nibble and in the byte that they write. -/
theorem logicWritesResultWithoutFlag : Obligations.LogicWritesResultWithoutFlag := fun x y s =>
  ⟨⟨decodesTo_of_decodeClass8 rfl (decodeClass8_formatFXY_orReg 0x8#4 x y),
      writesRegister_of_exec (exec_orReg x y s)⟩,
    ⟨decodesTo_of_decodeClass8 rfl (decodeClass8_formatFXY_andReg 0x8#4 x y),
      writesRegister_of_exec (exec_andReg x y s)⟩,
    ⟨decodesTo_of_decodeClass8 rfl (decodeClass8_formatFXY_xorReg 0x8#4 x y),
      writesRegister_of_exec (exec_xorReg x y s)⟩⟩

/-- Settles O15: six of the eleven end in a register write and five in a result with its flag, and both
endings have the frame of the statement. -/
theorem aluFamilyTouchesOnlyRegisters : Obligations.AluFamilyTouchesOnlyRegisters := by
  intro x y nn s i hi
  simp only [List.mem_cons, List.not_mem_nil, or_false] at hi
  rcases hi with rfl | rfl | rfl | rfl | rfl | rfl | rfl | rfl | rfl | rfl | rfl
  · exact (writesRegister_of_exec (exec_ldImm x nn s)).frame
  · exact (writesRegister_of_exec (exec_addImm x nn s)).frame
  · exact (writesRegister_of_exec (exec_ldReg x y s)).frame
  · exact (writesRegister_of_exec (exec_orReg x y s)).frame
  · exact (writesRegister_of_exec (exec_andReg x y s)).frame
  · exact (writesRegister_of_exec (exec_xorReg x y s)).frame
  · exact (writesResultAndFlag_of_exec (exec_addReg x y s)).frame
  · exact (writesResultAndFlag_of_exec (exec_subReg x y s)).frame
  · exact (writesResultAndFlag_of_exec (exec_shr x y s)).frame
  · exact (writesResultAndFlag_of_exec (exec_subnReg x y s)).frame
  · exact (writesResultAndFlag_of_exec (exec_shl x y s)).frame

end Sys2Proof.Machine

/-! The obligation of 44_index_random.md about the index load (R140). -/

namespace Sys2Proof.Machine

theorem unchangedBut_setI (s : State) (w : Word) : UnchangedBut [.i] s (s.setI w) := by
  intro f hf
  cases f
  case i => exact absurd (List.mem_singleton_self _) hf
  all_goals simp [SameField]

theorem decode_formatFA_ldI (nnn : Addr12) : decode (formatFA 0xA#4 nnn) = .ok (.ldI nnn) := by
  obtain ⟨hC, hNNN⟩ := fields_formatFA 0xA#4 nnn
  simp only [decode, hC, hNNN]

theorem exec_ldI (nnn : Addr12) (s : State) :
    exec (.ldI nnn) s = .next (s.setI (addressOperand nnn)).advance := rfl

/-- Settles O16: `ANNN` is an update of I, to the zero-extended address, followed by one of PC, so its
frame is the two frames together. -/
theorem loadIndexSetsAddress : Obligations.LoadIndexSetsAddress := by
  intro nnn s
  have hi : (s.setI (addressOperand nnn)).advance.i.toNat = nnn.toNat := addressOperand_toNat nnn
  refine ⟨decodesTo_of_toNat (toNat_formatFA 0xA#4 nnn) (decode_formatFA_ldI nnn), _, exec_ldI nnn s, hi,
    rfl, ?_⟩
  exact (unchangedBut_setI s _).trans (unchangedBut_advance _)

end Sys2Proof.Machine

/-! The obligation of 46_fx_timer_index_memory_key.md about the glyph pointer (R154). -/

namespace Sys2Proof.Machine

/-! ## Decoding of class F -/

theorem decode_formatFXK_classF (x : Reg) (nn : Byte) :
    decode (formatFXK 0xF#4 x nn) = decodeClassF (formatFXK 0xF#4 x nn) := by
  obtain ⟨hC, -⟩ := fields_formatFXK 0xF#4 x nn
  simp only [decode, hC]

theorem decodeClassF_formatFXK_ldF (c : Nibble) (x : Reg) :
    decodeClassF (formatFXK c x 0x29#8) = .ok (.ldF x) := by
  simp only [decodeClassF, fields_formatFXK]

/-- A word of class F by its number: class and low byte make `base`, X stands between (R62). -/
theorem decodesTo_of_decodeClassF {base : Nat} {x : Reg} {nn : Byte} {i : Instr}
    (hbase : base = 0xF000 + nn.toNat) (h : decodeClassF (formatFXK 0xF#4 x nn) = .ok i) :
    DecodesTo (base + x.toNat * 0x100) i := by
  have hclass : (0xF#4).toNat = 15 := rfl
  refine decodesTo_of_toNat ?_ ((decode_formatFXK_classF x nn).trans h)
  rw [toNat_formatFXK, hclass]
  omega

/-! ## The obligation -/

theorem exec_ldF (x : Reg) (s : State) :
    exec (.ldF x) s = .next (s.setI (glyphAddress (s.readV x))).advance := rfl

/-- Settles O22: `FX29` is an update of I, to the product that never wraps, followed by one of PC, so
its frame is the two frames together. -/
theorem glyphPointerIsFiveTimesRegister : Obligations.GlyphPointerIsFiveTimesRegister := by
  intro x s
  have hi : (s.setI (glyphAddress (s.readV x))).advance.i.toNat = (s.readV x).toNat * 5 :=
    glyphAddress_toNat (s.readV x)
  refine ⟨decodesTo_of_decodeClassF rfl (decodeClassF_formatFXK_ldF 0xF#4 x), _, exec_ldF x s, hi, rfl, ?_⟩
  exact (unchangedBut_setI s _).trans (unchangedBut_advance _)

end Sys2Proof.Machine

/-! The obligations of 30_encoding.md: the decoder against the encoder and against the opcode map
(R60 to R69). -/

namespace Sys2Proof.Machine

/-! ## A word by its fields -/

theorem formatFA_of_class {w : Word} {c : Nibble} (hC : fieldC w = c) : formatFA c (fieldNNN w) = w := by
  rw [← hC, (formats_of_fields w).1]

theorem formatFXK_of_class {w : Word} {c : Nibble} (hC : fieldC w = c) :
    formatFXK c (fieldX w) (fieldNN w) = w := by
  rw [← hC, (formats_of_fields w).2.1]

theorem formatFXY_of_class {w : Word} {c : Nibble} (hC : fieldC w = c) :
    formatFXY c (fieldX w) (fieldY w) (fieldN w) = w := by
  rw [← hC, (formats_of_fields w).2.2]

theorem formatFXK_of_subByte {w : Word} {c : Nibble} {nn : Byte} (hC : fieldC w = c) (hNN : fieldNN w = nn) :
    formatFXK c (fieldX w) nn = w := by
  rw [← hNN, formatFXK_of_class hC]

theorem formatFXY_of_subNibble {w : Word} {c n : Nibble} (hC : fieldC w = c) (hN : fieldN w = n) :
    formatFXY c (fieldX w) (fieldY w) n = w := by
  rw [← hN, formatFXY_of_class hC]

/-- The two bytes of a word put together again (R40). -/
theorem wordOfBytes_firstByte_secondByte (w : Word) : wordOfBytes (firstByte w) (secondByte w) = w := by
  apply BitVec.eq_of_toNat_eq
  have hw := w.isLt
  simp only [toNat_wordOfBytes, firstByte, secondByte, BitVec.extractLsb'_toNat, Nat.shiftRight_eq_div_pow]
  omega

/-! ## Decoding an encoded instruction -/

/-- NNN of a word of class 0 is the word itself, so the reserved slot meets neither fixed word of the
class (R65, R68). -/
theorem decodeClass0_formatFA {nnn : Addr12} (hcls : nnn ≠ 0x0E0#12) (hret : nnn ≠ 0x0EE#12) :
    decodeClass0 (formatFA 0x0#4 nnn) = .sys nnn := by
  have hNNN : fieldNNN (formatFA 0x0#4 nnn) = nnn := (fields_formatFA 0x0#4 nnn).2
  have hne (w : Word) (hw : nnn ≠ fieldNNN w) : formatFA 0x0#4 nnn ≠ w := fun e => hw (by rw [← e, hNNN])
  rw [decodeClass0, if_neg (hne 0x00E0#16 hcls), if_neg (hne 0x00EE#16 hret), hNNN]

/-- The fields of an encoded word are the operands that were put in, and its class and sub-opcode lead
the decoder to the constructor they came from. -/
theorem decode_encode (i : Instr) (hi : i.wellFormed = true) : decode (encode i) = .ok i := by
  cases i
  case cls | ret => rfl
  case sys nnn =>
    obtain ⟨hcls, hret⟩ : nnn ≠ 0x0E0#12 ∧ nnn ≠ 0x0EE#12 := by simpa [Instr.wellFormed] using hi
    simp only [encode, decode, fields_formatFA, decodeClass0_formatFA hcls hret]
  case jp | call | ldI | jpV0 => simp only [encode, decode, fields_formatFA]
  case seImm | sneImm | ldImm | addImm | rnd => simp only [encode, decode, fields_formatFXK]
  case drw => simp only [encode, decode, fields_formatFXY]
  case seReg | sneReg => simp only [encode, decode, fields_formatFXY, if_true]
  case skp | sknp => simp only [encode, decode, decodeClassE, fields_formatFXK]
  case ldVxDt | ldVxK | ldDtVx | ldStVx | addI | ldF | ldB | storeRegs | loadRegs =>
    simp only [encode, decode, decodeClassF, fields_formatFXK]
  all_goals simp only [encode, decode, decodeClass8, fields_formatFXY]

/-- Settles O53: the decoder gives back an encoded instruction, and the two bytes in front of any others
are read as the word they were cut from. -/
theorem decodeInvertsEncode : Obligations.DecodeInvertsEncode := by
  intro i hi
  refine ⟨decode_encode i hi, fun rest => ?_⟩
  simp only [encodeBytes, List.cons_append, List.nil_append, decodeBytes,
    wordOfBytes_firstByte_secondByte, decode_encode i hi]

/-! ## Encoding a decoded instruction -/

/-- The instruction stands for the word: what one decoding and the encoder agree on. -/
def StandsFor (i : Instr) (w : Word) : Prop := i.wellFormed = true ∧ encode i = w

theorem standsFor_decodeClass0 {w : Word} (hC : fieldC w = 0x0#4) : StandsFor (decodeClass0 w) w := by
  have hw : formatFA 0x0#4 (fieldNNN w) = w := formatFA_of_class hC
  unfold decodeClass0
  split_ifs with hcls hret
  · exact ⟨rfl, hcls.symm⟩
  · exact ⟨rfl, hret.symm⟩
  · refine ⟨?_, hw⟩
    have hcls' : fieldNNN w ≠ 0x0E0#12 := fun e => hcls (by rw [← hw, e]; rfl)
    have hret' : fieldNNN w ≠ 0x0EE#12 := fun e => hret (by rw [← hw, e]; rfl)
    simp [Instr.wellFormed, hcls', hret']

theorem standsFor_decodeClass8 {w : Word} {i : Instr} (hC : fieldC w = 0x8#4)
    (h : decodeClass8 w = .ok i) : StandsFor i w := by
  unfold decodeClass8 at h
  split at h
  case h_10 => cases h
  all_goals
    cases h
    exact ⟨rfl, formatFXY_of_subNibble hC ‹_›⟩

theorem standsFor_decodeClassE {w : Word} {i : Instr} (hC : fieldC w = 0xE#4)
    (h : decodeClassE w = .ok i) : StandsFor i w := by
  unfold decodeClassE at h
  split at h
  case h_3 => cases h
  all_goals
    cases h
    exact ⟨rfl, formatFXK_of_subByte hC ‹_›⟩

theorem standsFor_decodeClassF {w : Word} {i : Instr} (hC : fieldC w = 0xF#4)
    (h : decodeClassF w = .ok i) : StandsFor i w := by
  unfold decodeClassF at h
  split at h
  case h_10 => cases h
  all_goals
    cases h
    exact ⟨rfl, formatFXK_of_subByte hC ‹_›⟩

theorem standsFor_of_subNibble_zero {w : Word} {c : Nibble} {i j : Instr} (hC : fieldC w = c)
    (hj : StandsFor j (formatFXY c (fieldX w) (fieldY w) 0#4))
    (h : (if fieldN w = 0#4 then .ok j else .error (.undefinedWord w) : Except DecodeReject Instr) = .ok i) :
    StandsFor i w := by
  split_ifs at h with hN
  cases h
  rwa [formatFXY_of_subNibble hC hN] at hj

/-- A word decodes to the instruction that stands for it (R64, R65). -/
theorem standsFor_of_decode {w : Word} {i : Instr} (h : decode w = .ok i) : StandsFor i w := by
  unfold decode at h
  split at h <;> rename_i hC
  case h_1 => cases h; exact standsFor_decodeClass0 hC
  case h_6 | h_10 => exact standsFor_of_subNibble_zero hC ⟨rfl, rfl⟩ h
  case h_9 => exact standsFor_decodeClass8 hC h
  case h_15 => exact standsFor_decodeClassE hC h
  case h_16 => exact standsFor_decodeClassF hC h
  case h_17 => cases h
  case h_2 | h_3 | h_11 | h_12 => cases h; exact ⟨rfl, formatFA_of_class hC⟩
  case h_14 => cases h; exact ⟨rfl, formatFXY_of_class hC⟩
  all_goals
    cases h
    exact ⟨rfl, formatFXK_of_class hC⟩

/-- Settles O54: class by class, the decoder takes the operands out of the fields that the encoder puts
them into. -/
theorem encodeInvertsDecode : Obligations.EncodeInvertsDecode := fun _ _ h => standsFor_of_decode h

/-! ## The opcode map (R65) -/

/-- The row of an instruction covers its word. -/
theorem opcodeRow_covers_encode (i : Instr) : (opcodeRow i).covers (encode i) = true := by
  cases i
  case cls => exact Laws.EncodesInItsOpcodeRow.cls
  case ret => exact Laws.EncodesInItsOpcodeRow.ret
  case jp | call | ldI | jpV0 | sys => exact beq_iff_eq.mpr (Laws.EncodesInItsOpcodeRow.masked_formatFA _ _)
  case seImm | sneImm | ldImm | addImm | rnd =>
    exact beq_iff_eq.mpr (Laws.EncodesInItsOpcodeRow.masked_formatFXK _ _ _).1
  case skp | sknp | ldVxDt | ldVxK | ldDtVx | ldStVx | addI | ldF | ldB | storeRegs | loadRegs =>
    exact beq_iff_eq.mpr (Laws.EncodesInItsOpcodeRow.masked_formatFXK _ _ _).2
  case drw => exact beq_iff_eq.mpr (Laws.EncodesInItsOpcodeRow.masked_formatFXY _ _ _ _).1
  all_goals exact beq_iff_eq.mpr (Laws.EncodesInItsOpcodeRow.masked_formatFXY _ _ _ _).2

theorem opcodeRow_covers_of_decode {w : Word} {i : Instr} (h : decode w = .ok i) :
    (opcodeRow i).covers w = true := by
  obtain ⟨-, hw⟩ := standsFor_of_decode h
  simpa only [hw] using opcodeRow_covers_encode i

/-- The defined rows are the rows of the instructions other than the reserved slot. -/
theorem mem_definedRows {p : OpcodeRow} :
    p ∈ definedRows ↔ ∃ i, (∀ nnn, i ≠ .sys nnn) ∧ opcodeRow i = p := by
  constructor
  · intro hp
    obtain ⟨i, hi, rfl⟩ := List.mem_map.mp hp
    refine ⟨i, ?_, rfl⟩
    rintro nnn rfl
    simp at hi
  · rintro ⟨i, hi, rfl⟩
    cases i
    case sys nnn => exact absurd rfl (hi nnn)
    all_goals simp [definedRows, opcodeRow]

/-- A field of a word is the pattern's where the mask looks at every bit of it. -/
theorem fieldC_of_masked {w mask pattern : Word} (h : w &&& mask = pattern) (hm : fieldC mask = 0xF#4) :
    fieldC w = pattern.extractLsb' 12 4 := by
  have hand : fieldC (w &&& mask) = fieldC w &&& fieldC mask := BitVec.extractLsb'_and
  rw [← h, ← fieldC, hand, hm]
  exact BitVec.and_allOnes.symm

theorem fieldN_of_masked {w mask pattern : Word} (h : w &&& mask = pattern) (hm : fieldN mask = 0xF#4) :
    fieldN w = pattern.extractLsb' 0 4 := by
  have hand : fieldN (w &&& mask) = fieldN w &&& fieldN mask := BitVec.extractLsb'_and
  rw [← h, ← fieldN, hand, hm]
  exact BitVec.and_allOnes.symm

theorem fieldNN_of_masked {w mask pattern : Word} (h : w &&& mask = pattern) (hm : fieldNN mask = 0xFF#8) :
    fieldNN w = pattern.extractLsb' 0 8 := by
  have hand : fieldNN (w &&& mask) = fieldNN w &&& fieldNN mask := BitVec.extractLsb'_and
  rw [← h, ← fieldNN, hand, hm]
  exact BitVec.and_allOnes.symm

/-- A word that a defined row covers decodes to an instruction of that row: the mask looks at the class,
and at the sub-opcode where the class has one. -/
theorem decode_of_covers {w : Word} {p : OpcodeRow} (hp : p ∈ definedRows) (h : p.covers w = true) :
    ∃ i, decode w = .ok i ∧ (∀ nnn, i ≠ .sys nnn) ∧ opcodeRow i = p := by
  obtain ⟨j, hj, rfl⟩ := mem_definedRows.mp hp
  rw [OpcodeRow.covers, beq_iff_eq] at h
  cases j <;> simp only [opcodeRow] at h
  case sys nnn => exact absurd rfl (hj nnn)
  case cls =>
    obtain rfl : w = 0x00E0#16 := BitVec.and_allOnes.symm.trans h
    exact ⟨.cls, rfl, nofun, rfl⟩
  case ret =>
    obtain rfl : w = 0x00EE#16 := BitVec.and_allOnes.symm.trans h
    exact ⟨.ret, rfl, nofun, rfl⟩
  all_goals have hC := fieldC_of_masked h (by decide)
  case jp | call | ldI | jpV0 | seImm | sneImm | ldImm | addImm | rnd | drw =>
    simp [decode, hC, opcodeRow]
  case skp | sknp =>
    have hNN := fieldNN_of_masked h (by decide)
    simp [decode, decodeClassE, hC, hNN, opcodeRow]
  case ldVxDt | ldVxK | ldDtVx | ldStVx | addI | ldF | ldB | storeRegs | loadRegs =>
    have hNN := fieldNN_of_masked h (by decide)
    simp [decode, decodeClassF, hC, hNN, opcodeRow]
  all_goals
    have hN := fieldN_of_masked h (by decide)
    simp [decode, decodeClass8, hC, hN, opcodeRow]

/-- A word has one decoding, so it has one defined row. -/
theorem definedRows_disjoint {w : Word} {p q : OpcodeRow} (hp : p ∈ definedRows) (hq : q ∈ definedRows)
    (hpw : p.covers w = true) (hqw : q.covers w = true) : p = q := by
  obtain ⟨i, hi, -, rfl⟩ := decode_of_covers hp hpw
  obtain ⟨j, hj, -, rfl⟩ := decode_of_covers hq hqw
  rw [hi] at hj
  cases hj
  rfl

/-- A word decodes to a defined instruction exactly when a defined row covers it. -/
theorem decode_defined_iff (w : Word) :
    (∃ i, decode w = .ok i ∧ ∀ nnn, i ≠ .sys nnn) ↔ ∃ p ∈ definedRows, p.covers w = true := by
  constructor
  · rintro ⟨i, hi, hsys⟩
    exact ⟨opcodeRow i, mem_definedRows.mpr ⟨i, hsys, rfl⟩, opcodeRow_covers_of_decode hi⟩
  · rintro ⟨p, hp, hw⟩
    obtain ⟨i, hi, hsys, -⟩ := decode_of_covers hp hw
    exact ⟨i, hi, hsys⟩

/-- The reserved slot takes the words of class 0 that no defined row covers. -/
theorem decode_sys_iff (w : Word) : (∃ nnn, decode w = .ok (.sys nnn)) ↔
    (w &&& 0xF000#16 = 0#16 ∧ ∀ p ∈ definedRows, p.covers w = false) := by
  constructor
  · rintro ⟨nnn, hd⟩
    refine ⟨beq_iff_eq.mp (opcodeRow_covers_of_decode hd), fun p hp => Bool.eq_false_iff.mpr fun hw => ?_⟩
    obtain ⟨i, hi, hsys, -⟩ := decode_of_covers hp hw
    rw [hd] at hi
    cases hi
    exact hsys nnn rfl
  · rintro ⟨hclass, hnone⟩
    have hC : fieldC w = 0x0#4 := fieldC_of_masked hclass rfl
    have hd : decode w = .ok (decodeClass0 w) := by simp only [decode, hC]
    by_contra hsys
    obtain ⟨p, hp, hw⟩ := (decode_defined_iff w).mp
      ⟨_, hd, fun nnn e => hsys ⟨nnn, by rw [hd, e]⟩⟩
    rw [hnone p hp] at hw
    cases hw

/-- Settles O55: a word that a row covers decodes to an instruction of that row, and a word that decodes
is covered by its instruction's row. -/
theorem decoderFollowsOpcodeMap : Obligations.DecoderFollowsOpcodeMap :=
  ⟨fun _ _ hp _ hq => definedRows_disjoint hp hq, fun _ _ => opcodeRow_covers_of_decode,
    decode_defined_iff, decode_sys_iff⟩

/-- Settles O56: the decoder runs on each of the twelve words. -/
theorem sampleWordsDecodeAsTheSpecSays : Obligations.SampleWordsDecodeAsTheSpecSays :=
  ⟨rfl, rfl, rfl, rfl, rfl, rfl, rfl, rfl, rfl, rfl, rfl, rfl⟩

end Sys2Proof.Machine

/-! The obligations about single instructions that store nothing in memory: calls and returns, skips,
the flagged arithmetic, random bytes, timer moves, the index sum, the key wait and the reserved slot. -/

namespace Sys2Proof.Machine

/-! ## Frames of the updates that the instructions are made of -/

theorem UnchangedBut.mono {changed changed' : List Field} {s t : State} (h : UnchangedBut changed s t)
    (hsub : changed ⊆ changed') : UnchangedBut changed' s t :=
  fun f hf => h f fun hmem => hf (hsub hmem)

theorem unchangedBut_refl (s : State) : UnchangedBut [] s s := by
  intro f _
  cases f <;> simp [SameField]

theorem unchangedBut_setDt (s : State) (b : Byte) : UnchangedBut [.dt] s (s.setDt b) := by
  intro f hf
  cases f <;> simp [SameField] at hf ⊢

theorem unchangedBut_setSt (s : State) (b : Byte) : UnchangedBut [.st] s (s.setSt b) := by
  intro f hf
  cases f <;> simp [SameField] at hf ⊢

theorem unchangedBut_setMem (s : State) (m : Memory) : UnchangedBut [.mem] s (s.setMem m) := by
  intro f hf
  cases f <;> simp [SameField] at hf ⊢

theorem unchangedBut_setStatus (s : State) (x : Status) : UnchangedBut [.status] s (s.setStatus x) := by
  intro f hf
  cases f <;> simp [SameField] at hf ⊢

theorem unchangedBut_draw8 (s : State) : UnchangedBut [.draws] s s.draw8.2 := by
  intro f hf
  cases f <;> simp [SameField] at hf ⊢

theorem unchangedBut_tick (s : State) : UnchangedBut [.dt, .st, .beep] s s.tick := by
  intro f hf
  cases f <;> simp [SameField] at hf ⊢

theorem unchangedBut_haltedCycle (s : State) (f : EngineFault) :
    UnchangedBut [.status, .beep] s (s.haltedCycle f) := by
  intro f hf
  cases f <;> simp [SameField] at hf ⊢

theorem raisedOver_raise (s : State) (f : EngineFault) : RaisedOver f s (s.raise f) := by
  refine ⟨rfl, rfl, rfl, fun g hg => ?_⟩
  cases g <;> simp [SameField] at hg ⊢

theorem raises_of_exec {i : Instr} {s : State} {f : EngineFault} (h : exec i s = .next (s.raise f)) :
    Raises i s f :=
  ⟨_, h, raisedOver_raise s f⟩

/-! ## Call and return (R101, R103) -/

/-- What a push with room leaves (R20). -/
def State.pushed (s : State) (a : Word) (h : s.sp.val < 16) : State :=
  { s with stack := s.stack.set s.sp.val a h, sp := ⟨s.sp.val + 1, Nat.succ_lt_succ h⟩ }

/-- What a pop of a held address leaves, that address aside (R20, decision D19). -/
def State.popped (s : State) : State := { s with sp := ⟨s.sp.val - 1, by omega⟩ }

theorem unchangedBut_pushed (s : State) (a : Word) (h : s.sp.val < 16) :
    UnchangedBut [.stack, .sp] s (s.pushed a h) := by
  intro f hf
  cases f
  case stack | sp => simp at hf
  all_goals simp [SameField, State.pushed, State.readV, State.keyDown]

theorem unchangedBut_popped (s : State) : UnchangedBut [.sp] s s.popped := by
  intro f hf
  cases f
  case sp => simp at hf
  all_goals simp [SameField, State.popped, State.readV, State.keyDown]

theorem exec_call_of_lt (nnn : Addr12) {s : State} (h : s.sp.val < 16) :
    exec (.call nnn) s = .next ((s.pushed s.pc h).setPc (addressOperand nnn)) := by
  simp only [exec, execCall, State.push_of_lt s s.pc h]
  rfl

theorem exec_call_of_full (nnn : Addr12) {s : State} (h : s.sp.val = 16) :
    exec (.call nnn) s = .next (s.raise (.stackOverflow s.pc)) := by
  simp only [exec, execCall, State.push_of_full s s.pc h, State.settle_error]

theorem exec_ret_of_pos {s : State} (h : s.sp.val ≠ 0) : exec .ret s =
    .next (s.popped.setPc (s.stack[s.sp.val - 1]'(by omega) + 2#16)) := by
  simp only [exec, execRet, State.pop_of_pos s h]
  rfl

theorem exec_ret_of_empty {s : State} (h : s.sp.val = 0) :
    exec .ret s = .next (s.raise (.stackUnderflow s.pc)) := by
  simp only [exec, execRet, State.pop_of_empty s h, State.settle_error]

theorem pushed_stack_self (s : State) (a : Word) (h : s.sp.val < 16) :
    (s.pushed a h).stack[s.sp.val] = a := Vector.getElem_set_self ..

theorem pushed_stack_of_ne (s : State) (a : Word) (h : s.sp.val < 16) (k : Fin 16) (hk : k.val ≠ s.sp.val) :
    (s.pushed a h).stack[k.val] = s.stack[k.val] := Vector.getElem_set_ne h k.isLt hk.symm

theorem decode_formatFA_call (nnn : Addr12) : decode (formatFA 0x2#4 nnn) = .ok (.call nnn) :=
  decode_encode (.call nnn) rfl

/-- Settles O4: with room the call is a push of PC followed by an update of PC, and on a full stack the
push raises. -/
theorem callPushesItsAddressOrOverflows : Obligations.CallPushesItsAddressOrOverflows := by
  intro nnn s
  refine ⟨decodesTo_of_toNat (toNat_formatFA 0x2#4 nnn) (decode_formatFA_call nnn), fun h => ?_,
    fun h => raises_of_exec (exec_call_of_full nnn h)⟩
  refine ⟨_, exec_call_of_lt nnn h, pushed_stack_self s s.pc h, pushed_stack_of_ne s s.pc h, rfl,
    addressOperand_toNat nnn, ?_⟩
  exact (unchangedBut_pushed s s.pc h).trans (unchangedBut_setPc _ _)

/-- Settles O5: with an address held the return is a pop followed by an update of PC, and on an empty stack
the pop raises. -/
theorem returnGoesPastTheCallOrUnderflows : Obligations.ReturnGoesPastTheCallOrUnderflows := by
  have hdecode : DecodesTo 0x00EE .ret := rfl
  refine ⟨hdecode, fun s => ⟨fun k hk => ?_, fun h => raises_of_exec (exec_ret_of_empty h)⟩⟩
  have hpos : s.sp.val ≠ 0 := by omega
  refine ⟨_, exec_ret_of_pos hpos, ?_, ?_, (unchangedBut_popped s).trans (unchangedBut_setPc _ _)⟩
  · simp [hk]
  · simp [State.popped, hk]

/-- Settles O6: the return pops the entry that the call wrote at the old SP, so SP and the entries below it
are as they were. -/
theorem callThenReturnComesBack : Obligations.CallThenReturnComesBack := by
  intro nnn s h
  have hpos : ((s.pushed s.pc h).setPc (addressOperand nnn)).sp.val ≠ 0 := Nat.succ_ne_zero _
  refine ⟨_, _, exec_call_of_lt nnn h, exec_ret_of_pos hpos, ?_, rfl, ?_, ?_⟩
  · exact congrArg (· + 2#16) (pushed_stack_self s s.pc h)
  · intro k hk
    exact pushed_stack_of_ne s s.pc h k (by omega)
  · intro f hf
    by_cases hsp : f = .sp
    · subst hsp
      rfl
    · have hcall := (unchangedBut_pushed s s.pc h).trans (unchangedBut_setPc _ (addressOperand nnn))
      refine hcall.trans ((unchangedBut_popped _).trans (unchangedBut_setPc _ _)) f ?_
      simpa [hsp] using hf

/-! ## Skips (R110 to R117) -/

theorem skipsWhen_of_exec {i : Instr} {s : State} {cond : Bool} (h : exec i s = skipIf cond s) :
    SkipsWhen i s cond := by
  refine ⟨_, h, ?_, ?_⟩ <;> cases cond
  · rfl
  · rfl
  · exact unchangedBut_advance s
  · exact unchangedBut_setPc s _

/-- The key that VX names is the one of index VX mod 16 (R117, decision D10). -/
theorem keyDown_keyIndex (s : State) (vx : Byte) (k : Fin 16) (hk : k.val = vx.toNat % 16) :
    s.keyDown (keyIndex vx) = s.keys[k.val] := by
  have hindex : (keyIndex vx).toNat = k.val := by simp [keyIndex, hk]
  simp only [State.keyDown, hindex]

/-- Settles O7: the four compares are the common skip with their own condition. -/
theorem comparesSkipOneWord : Obligations.ComparesSkipOneWord := by
  intro x y nn s
  have hne (a b : Byte) : decide (a ≠ b) = (a != b) := decide_not
  refine ⟨skipsWhen_of_exec rfl, ?_, skipsWhen_of_exec rfl, ?_⟩
  · rw [hne]; exact skipsWhen_of_exec rfl
  · rw [hne]; exact skipsWhen_of_exec rfl

/-- Settles O8: the two key tests are the common skip, on the key of index VX mod 16. -/
theorem keyTestsSkipOneWord : Obligations.KeyTestsSkipOneWord := by
  intro x s k hk
  rw [← keyDown_keyIndex s (s.readV x) k hk]
  exact ⟨skipsWhen_of_exec rfl, skipsWhen_of_exec rfl⟩

/-! ## Results with a flag, and the random byte (R126 to R130, R141) -/

/-- Settles O13: the narrowed results are the sums and differences of bytes, and NOT borrow says that the
subtrahend is no greater than the minuend. -/
theorem addAndSubtractSetCarryAndBorrow : Obligations.AddAndSubtractSetCarryAndBorrow := by
  intro x y s
  simp only [← add8_eq, ← sub8_eq, ← noBorrow_eq]
  exact ⟨writesResultAndFlag_of_exec (exec_addReg x y s), writesResultAndFlag_of_exec (exec_subReg x y s),
    writesResultAndFlag_of_exec (exec_subnReg x y s)⟩

theorem shiftedOutLow_eq (vx : Byte) : shiftedOutLow vx = decide (vx.toNat % 2 = 1) := by
  simp [shiftedOutLow, BitVec.getLsbD, Nat.testBit_zero]

theorem shiftedOutHigh_eq (vx : Byte) : shiftedOutHigh vx = decide (128 ≤ vx.toNat) :=
  vx.msb_eq_getLsbD_last.symm.trans vx.msb_eq_decide

/-- Settles O14: the shifts are `>>> 1` and `<<< 1` of a byte, and the bits that leave are its parity and
whether it reaches 128. -/
theorem shiftsMoveOnePlaceIntoFlag : Obligations.ShiftsMoveOnePlaceIntoFlag := by
  intro x y s
  rw [← shiftRight8_eq, ← shiftLeft8_eq, ← shiftedOutLow_eq, ← shiftedOutHigh_eq]
  exact ⟨writesResultAndFlag_of_exec (exec_shr x y s), writesResultAndFlag_of_exec (exec_shl x y s)⟩

theorem exec_rnd (x : Reg) (nn : Byte) (s : State) :
    exec (.rnd x nn) s = .next ((s.draw8.2).writeV x (Config.randomByte s.draws &&& nn)).advance := rfl

/-- Settles O17: `CXNN` is a draw, a register write and an update of PC, and a byte masked with NN has no
bit in common with the complement of NN. -/
theorem randomIsMaskedDraw : Obligations.RandomIsMaskedDraw := by
  intro x nn s
  have hx : ((s.draw8.2).writeV x (Config.randomByte s.draws &&& nn)).advance.readV x =
      Config.randomByte s.draws &&& nn := State.readV_writeV_self _ x _
  refine ⟨_, exec_rnd x nn s, hx, ?_, rfl, regsUnchangedBut_writeV s.draw8.2 x _, rfl, ?_⟩
  · rw [hx, BitVec.and_assoc, BitVec.and_not_self]
    exact BitVec.and_zero
  · exact (((unchangedBut_draw8 s).trans (unchangedBut_writeV _ x _)).trans
      (unchangedBut_advance _)).mono (by simp)

/-! ## Timer moves, index sum and key wait (R150 to R153, R158) -/

theorem exec_ldVxDt (x : Reg) (s : State) : exec (.ldVxDt x) s = finishResult x s.dt s := rfl

theorem exec_ldDtVx (x : Reg) (s : State) : exec (.ldDtVx x) s = .next (s.setDt (s.readV x)).advance := rfl

theorem exec_ldStVx (x : Reg) (s : State) : exec (.ldStVx x) s = .next (s.setSt (s.readV x)).advance := rfl

/-- Settles O20: one move is a register write, the other two are updates of a timer followed by one of
PC. -/
theorem timerMovesCopyBytes : Obligations.TimerMovesCopyBytes := by
  intro x s
  refine ⟨writesRegister_of_exec (exec_ldVxDt x s), ⟨_, exec_ldDtVx x s, rfl, rfl, ?_⟩,
    ⟨_, exec_ldStVx x s, rfl, rfl, ?_⟩⟩
  · exact (unchangedBut_setDt s _).trans (unchangedBut_advance _)
  · exact (unchangedBut_setSt s _).trans (unchangedBut_advance _)

theorem exec_addI (x : Reg) (s : State) : exec (.addI x) s = .next
    ((s.setI (indexSum s.i (s.readV x))).writeFlag (indexBeyondMemory s.i (s.readV x))).advance := rfl

/-- Settles O21: `FX1E` is an update of I, a flag write and an update of PC, with both sums taken from the
state it began in. -/
theorem addToIndexFlagsBeyondMemory : Obligations.AddToIndexFlagsBeyondMemory := by
  intro x s
  refine ⟨_, exec_addI x s, by simp [indexSum], ?_, ?_, rfl, ?_⟩
  · simp [State.readV_writeFlag, flagReg, flagByte, indexBeyondMemory]
  · exact regsUnchangedBut_writeV (s.setI _) flagReg _
  · exact (((unchangedBut_setI s _).trans (unchangedBut_writeV _ flagReg _)).trans
      (unchangedBut_advance _)).mono (by simp)

theorem exec_ldVxK_of_some (x : Reg) {s : State} {k : Fin 16} (h : s.lowestKey = some k) :
    exec (.ldVxK x) s = finishResult x (BitVec.ofNat 8 k.val) s := by
  simp only [exec, execLdVxK, h]

theorem exec_ldVxK_of_none (x : Reg) {s : State} (h : s.lowestKey = none) :
    exec (.ldVxK x) s = .next (s.setStatus .awaitingKey) := by
  simp only [exec, execLdVxK, h]

/-- The least key that is down is the one that the scan finds. -/
theorem lowestKey_eq_some_of_least {s : State} {k : Fin 16} (hk : s.keys[k.val] = true)
    (hleast : ∀ j : Fin 16, j < k → s.keys[j.val] = false) : s.lowestKey = some k := by
  cases hfound : s.lowestKey with
  | none =>
    have hnone := s.lowestKey_eq_none.mp hfound k
    rw [hk] at hnone
    cases hnone
  | some j =>
    obtain ⟨hj, hbelow⟩ := s.lowestKey_eq_some j hfound
    rcases lt_trichotomy j k with hlt | rfl | hgt
    · rw [hleast j hlt] at hj
      cases hj
    · rfl
    · rw [hbelow k hgt] at hk
      cases hk

/-- Settles O27: the scan of the keys finds the least one that is down, or none. -/
theorem keyWaitTakesLowestKey : Obligations.KeyWaitTakesLowestKey := by
  refine fun x s => ⟨fun k hk hleast => ?_, fun hnone => ?_⟩
  · exact writesRegister_of_exec (exec_ldVxK_of_some x (lowestKey_eq_some_of_least hk hleast))
  · exact ⟨_, exec_ldVxK_of_none x (s.lowestKey_eq_none.mpr hnone), rfl, unchangedBut_setStatus s _⟩

/-! ## The reserved slot (R166) -/

theorem exec_sys (nnn : Addr12) (s : State) :
    exec (.sys nnn) s = .next (s.reportDecodeError (addressOperand nnn)) := rfl

/-- Settles O28: `0NNN` is an update of the status, with NNN as a word. -/
theorem reservedSlotReportsItsWord : Obligations.ReservedSlotReportsItsWord := fun nnn s =>
  ⟨_, _, exec_sys nnn s, addressOperand_toNat nnn, rfl, unchangedBut_setStatus s _⟩

end Sys2Proof.Machine

/-! The obligations about the transfers between registers, memory and the screen, and about the loader
(R52, R55, R145 to R148, R155 to R157, R172). -/

namespace Sys2Proof.Machine

/-! ## Loads and stores that fit, and those that do not (R42, R172) -/

theorem Memory.load_of_fits {m : Memory} {base n : Nat} (h : n = 0 ∨ base + n ≤ 4096) :
    m.load base n = .ok (m.readList base n) := by
  rw [Memory.load_spec, if_pos h]

theorem Memory.load_of_overrun {m : Memory} {base n : Nat} (hn : n ≠ 0) (h : 4096 < base + n) :
    m.load base n = .error (.memoryFault (max base 4096)) := by
  rw [Memory.load_spec, if_neg (by omega)]

theorem Memory.store_of_fits {m : Memory} {base : Nat} {bs : List Byte} (h : base + bs.length ≤ 4096) :
    m.store base bs = .ok (m.writeList base bs) := by
  rw [Memory.store_spec, if_pos (.inr h)]

theorem Memory.store_of_overrun {m : Memory} {base : Nat} {bs : List Byte} (hbs : bs.length ≠ 0)
    (h : 4096 < base + bs.length) : m.store base bs = .error (.memoryFault (max base 4096)) := by
  rw [Memory.store_spec, if_neg (by omega)]

/-- Byte `k` of the bytes written from `base` is read at `base + k`. -/
theorem Memory.read_writeList_add {m : Memory} {base : Nat} {bs : List Byte} (hm : m.wf = true)
    (hfits : base + bs.length ≤ 4096) (k : Nat) (hk : k < bs.length) :
    (m.writeList base bs).read (base + k) = bs[k] := by
  have hin : base ≤ base + k ∧ base + k - base < bs.length := by omega
  rw [Memory.read_writeList bs m base _ hm hfits, dif_pos hin]
  simp only [Nat.add_sub_cancel_left]

theorem Memory.read_writeList_outside {m : Memory} {base : Nat} {bs : List Byte} (hm : m.wf = true)
    (hfits : base + bs.length ≤ 4096) {a : Nat} (ha : a < base ∨ base + bs.length ≤ a) :
    (m.writeList base bs).read a = m.read a := by
  rw [Memory.read_writeList bs m base a hm hfits, dif_neg (by omega)]

theorem fetch_of_pc_le {s : State} (h : s.pc.toNat ≤ 0xFFE) : fetch s = .ok (wordAtPc s) := by
  rw [fetch_spec, if_pos h]

/-! ## What the four transfers answer -/

theorem exec_ldB_of_fits (x : Reg) {s : State} (h : s.i.toNat + 3 ≤ 4096) : exec (.ldB x) s =
    .next (s.setMem (s.mem.writeList s.i.toNat (bcdDigits (s.readV x)))).advance := by
  simp only [exec, execLdB, Memory.store_of_fits (bs := bcdDigits (s.readV x)) h, State.settle_ok]

theorem exec_ldB_of_overrun (x : Reg) {s : State} (h : 4096 < s.i.toNat + 3) :
    exec (.ldB x) s = .next (s.raise (.memoryFault (max s.i.toNat 4096))) := by
  have hlen : (bcdDigits (s.readV x)).length ≠ 0 := Nat.succ_ne_zero 2
  simp only [exec, execLdB, Memory.store_of_overrun hlen h, State.settle_error]

theorem exec_storeRegs_of_fits (x : Reg) {s : State} (h : s.i.toNat + runLength x ≤ 4096) :
    exec (.storeRegs x) s = .next (((s.setMem (s.mem.writeList s.i.toNat
      (s.readVList 0 (runLength x)))).setI (indexPast s.i x)).advance) := by
  have hfits : s.i.toNat + (s.readVList 0 (runLength x)).length ≤ 4096 := by rwa [State.length_readVList]
  simp only [exec, execStoreRegs, Memory.store_of_fits hfits, State.settle_ok]

theorem exec_storeRegs_of_overrun (x : Reg) {s : State} (h : 4096 < s.i.toNat + runLength x) :
    exec (.storeRegs x) s = .next (s.raise (.memoryFault (max s.i.toNat 4096))) := by
  have hlen : (s.readVList 0 (runLength x)).length = runLength x := s.length_readVList _ 0
  have hpos : (s.readVList 0 (runLength x)).length ≠ 0 := by rw [hlen]; exact Nat.succ_ne_zero _
  simp only [exec, execStoreRegs, Memory.store_of_overrun hpos (hlen ▸ h), State.settle_error]

theorem exec_loadRegs_of_fits (x : Reg) {s : State} (h : s.i.toNat + runLength x ≤ 4096) :
    exec (.loadRegs x) s = .next (((s.writeVList 0 (s.mem.readList s.i.toNat (runLength x))).setI
      (indexPast s.i x)).advance) := by
  simp only [exec, execLoadRegs, Memory.load_of_fits (.inr h), State.settle_ok]

theorem exec_loadRegs_of_overrun (x : Reg) {s : State} (h : 4096 < s.i.toNat + runLength x) :
    exec (.loadRegs x) s = .next (s.raise (.memoryFault (max s.i.toNat 4096))) := by
  have hpos : runLength x ≠ 0 := Nat.succ_ne_zero _
  simp only [exec, execLoadRegs, Memory.load_of_overrun hpos h, State.settle_error]

/-- What a sprite of `n` rows at I makes of the screen, with the collision (R145). -/
def spriteBlit (s : State) (x y : Reg) (n : Nibble) : Framebuffer × Bool :=
  blit s.fb (s.readV x) (s.readV y) (s.mem.readList s.i.toNat n.toNat)

theorem exec_drw_of_fits (x y : Reg) {n : Nibble} {s : State} (h : n = 0#4 ∨ s.i.toNat + n.toNat ≤ 4096) :
    exec (.drw x y n) s =
      .next (((s.present (spriteBlit s x y n).1).writeFlag (spriteBlit s x y n).2).advance) := by
  have hfits : n.toNat = 0 ∨ s.i.toNat + n.toNat ≤ 4096 := h.imp_left fun hn => by rw [hn]; rfl
  simp only [exec, execDrw, Memory.load_of_fits hfits, State.settle_ok, spriteBlit]

theorem exec_drw_of_overrun (x y : Reg) {n : Nibble} {s : State} (hn : n ≠ 0#4)
    (h : 4096 < s.i.toNat + n.toNat) :
    exec (.drw x y n) s = .next (s.raise (.memoryFault (max s.i.toNat 4096))) := by
  have hpos : n.toNat ≠ 0 := fun e => hn (BitVec.eq_of_toNat_eq e)
  simp only [exec, execDrw, Memory.load_of_overrun hpos h, State.settle_error]

/-- Settles O26: the bounds check of each transfer comes before any of its effects. -/
theorem transfersOutsideMemoryFault : Obligations.TransfersOutsideMemoryFault := fun x y _ _ =>
  ⟨fun hn h => raises_of_exec (exec_drw_of_overrun x y hn h),
    fun h => raises_of_exec (exec_ldB_of_overrun x h),
    fun h => ⟨raises_of_exec (exec_storeRegs_of_overrun x h), raises_of_exec (exec_loadRegs_of_overrun x h)⟩⟩

/-! ## Decimal digits (R155) -/

/-- What a store of the digits reads as: the quotient by 100, and the two digits after it. -/
theorem read_writeList_bcdDigits {m : Memory} {base : Nat} (hm : m.wf = true) (hfits : base + 3 ≤ 4096)
    (vx : Byte) :
    ((m.writeList base (bcdDigits vx)).read base).toNat = vx.toNat / 100 ∧
    ((m.writeList base (bcdDigits vx)).read (base + 1)).toNat = vx.toNat / 10 % 10 ∧
    ((m.writeList base (bcdDigits vx)).read (base + 2)).toNat = vx.toNat % 10 := by
  have hlt := vx.isLt
  have hlen : (bcdDigits vx).length = 3 := rfl
  have hread := Memory.read_writeList_add (bs := bcdDigits vx) hm hfits
  refine ⟨?_, ?_, ?_⟩
  · have hread0 := hread 0 (by omega)
    rw [Nat.add_zero] at hread0
    rw [hread0]
    simp only [bcdDigits, List.getElem_cons_zero, BitVec.toNat_ofNat]
    omega
  · rw [hread 1 (by omega)]
    simp only [bcdDigits, List.getElem_cons_succ, List.getElem_cons_zero, BitVec.toNat_ofNat]
    omega
  · rw [hread 2 (by omega)]
    simp only [bcdDigits, List.getElem_cons_succ, List.getElem_cons_zero, BitVec.toNat_ofNat]
    omega

/-- Settles O23: `FX33` is a store of the three digits followed by an update of PC. -/
theorem decimalDigitsAreStored : Obligations.DecimalDigitsAreStored := by
  intro x s hm hfits
  obtain ⟨hhundreds, htens, hones⟩ := read_writeList_bcdDigits hm hfits (s.readV x)
  refine ⟨_, exec_ldB_of_fits x hfits, ?_, ?_, ?_,
    fun a => Memory.read_writeList_outside (bs := bcdDigits (s.readV x)) hm hfits, rfl,
    (unchangedBut_setMem s _).trans (unchangedBut_advance _)⟩
  all_goals
    simp only [State.advance_mem, State.setMem_mem, hhundreds, htens, hones]
    omega

/-! ## Register stores and loads (R156, R157) -/

/-- I past a run that fits in memory does not wrap. -/
theorem indexPast_toNat {i : Word} {x : Reg} (h : i.toNat + runLength x ≤ 4096) :
    (indexPast i x).toNat = i.toNat + runLength x := by
  simp only [indexPast, BitVec.toNat_ofNat]
  omega

/-- After a store of V0..VX the byte at `base + k` is Vk. -/
theorem read_writeList_readVList {m : Memory} {base : Nat} {x : Reg} (s : State) (hm : m.wf = true)
    (hfits : base + runLength x ≤ 4096) (k : Reg) (hk : k ≤ x) :
    (m.writeList base (s.readVList 0 (runLength x))).read (base + k.toNat) = s.readV k := by
  have hlen : (s.readVList 0 (runLength x)).length = runLength x := s.length_readVList _ 0
  have hin : k.toNat < (s.readVList 0 (runLength x)).length := by
    rw [hlen]
    exact Nat.lt_succ_of_le hk
  rw [Memory.read_writeList_add hm (by omega) k.toNat hin, State.getElem_readVList, Nat.zero_add,
    BitVec.ofNat_toNat, BitVec.setWidth_eq]

/-- Settles O24: `FX55` is a store of the run of registers followed by updates of I and PC. -/
theorem storeRegistersWritesRun : Obligations.StoreRegistersWritesRun := by
  intro x s hm hfits
  have hlen : (s.readVList 0 (runLength x)).length = x.toNat + 1 := s.length_readVList _ 0
  refine ⟨_, exec_storeRegs_of_fits x hfits, read_writeList_readVList s hm hfits, fun a ha => ?_,
    indexPast_toNat hfits, rfl, ?_⟩
  · exact Memory.read_writeList_outside hm (by rwa [hlen]) (by rwa [hlen])
  · exact (((unchangedBut_setMem s _).trans (unchangedBut_setI _ _)).trans
      (unchangedBut_advance _)).mono (by simp)

/-- Settles O52: the store leaves V0 and V1 at the old I and one past it, both within memory, and the fetch
there joins the two bytes. -/
theorem storeIsVisibleToNextFetch : Obligations.StoreIsVisibleToNextFetch := by
  intro x s hm hx hfits
  have hread := read_writeList_readVList s hm hfits
  have hone : 1 ≤ x.toNat := hx
  refine ⟨_, exec_storeRegs_of_fits x hfits, ?_⟩
  refine (fetch_of_pc_le (show s.i.toNat ≤ 0xFFE by omega)).trans ?_
  have hfirst := hread 0#4 (Nat.zero_le x.toNat)
  have hsecond := hread 1#4 hx
  exact congrArg₂ (fun b c => Except.ok (wordOfBytes b c)) hfirst hsecond

theorem unchangedBut_writeVList (s : State) (k : Nat) (bs : List Byte) :
    UnchangedBut [.v] s (s.writeVList k bs) := by
  intro f hf
  cases f <;> simp [SameField, State.keyDown] at hf ⊢

/-- After a load of `n` registers from V0 on, register `r` below `n` holds byte `r` of the load, and the
others hold what they held. -/
theorem readV_writeVList_readList (s : State) (base n : Nat) (hn : n ≤ 16) (r : Reg) :
    (s.writeVList 0 (s.mem.readList base n)).readV r =
      if r.toNat < n then s.mem.read (base + r.toNat) else s.readV r := by
  rw [State.readV_writeVList _ s 0 (by rw [Memory.length_readList]; omega)]
  simp only [Nat.zero_le, Nat.sub_zero, Memory.length_readList, true_and, Memory.getElem_readList]
  split_ifs <;> rfl

/-- Settles O25: `FX65` is a load of the run of registers followed by updates of I and PC. -/
theorem loadRegistersReadsRun : Obligations.LoadRegistersReadsRun := by
  intro x s hfits
  refine ⟨_, exec_loadRegs_of_fits x hfits, fun k => ?_, indexPast_toNat hfits,
    congrArg (· + 2#16) (State.writeVList_pc ..), ?_⟩
  · have hiff : k.toNat < runLength x ↔ k ≤ x := Nat.lt_succ_iff
    have hread := readV_writeVList_readList s s.i.toNat (runLength x) x.isLt k
    simpa only [hiff, State.readV_advance, State.readV_setI] using hread
  · exact (((unchangedBut_writeVList s 0 _).trans (unchangedBut_setI _ _)).trans
      (unchangedBut_advance _)).mono (by simp)

/-! ## Sprites (R145 to R148) -/

/-- The rows that `DXYN` reads are the rows that the statements speak of. -/
theorem getElem_readList_spriteRow (s : State) (n : Nat) (r : Nat)
    (hr : r < (s.mem.readList s.i.toNat n).length) : (s.mem.readList s.i.toNat n)[r] = spriteRow s r :=
  Memory.getElem_readList s.mem n s.i.toNat r hr

theorem pixel_spriteBlit (s : State) (x y : Reg) (n : Nibble) (px : Fin 64) (py : Fin 32) :
    pixel (spriteBlit s x y n).1 px py =
      (pixel s.fb px py ^^ decide (SpriteCovers (spriteRow s) n.toNat (s.readV x) (s.readV y) px py)) := by
  have hlen : (s.mem.readList s.i.toNat n.toNat).length = n.toNat := Memory.length_readList ..
  have hblit := pixel_blit s.fb (s.readV x) (s.readV y) _ (spriteRow s) (by omega)
    (getElem_readList_spriteRow s n.toNat) px py
  simpa only [hlen, spriteBlit] using hblit

theorem collision_spriteBlit (s : State) (x y : Reg) (n : Nibble) : (spriteBlit s x y n).2 = true ↔
    ∃ px py, SpriteCovers (spriteRow s) n.toNat (s.readV x) (s.readV y) px py ∧ pixel s.fb px py = true := by
  have hlen : (s.mem.readList s.i.toNat n.toNat).length = n.toNat := Memory.length_readList ..
  have hblit := collision_blit s.fb (s.readV x) (s.readV y) _ (spriteRow s) (by omega)
    (getElem_readList_spriteRow s n.toNat)
  simpa only [hlen, spriteBlit] using hblit

theorem flagByte_eq_zero_or_one (flag : Bool) : flagByte flag = 0#8 ∨ flagByte flag = 1#8 := by
  cases flag
  · exact .inl rfl
  · exact .inr rfl

theorem flagByte_eq_one {flag : Bool} : flagByte flag = 1#8 ↔ flag = true := by
  cases flag <;> decide

/-- Settles O18: `DXYN` is an update of the framebuffer by the blitter, a write of its collision flag and
an update of PC. -/
theorem drawFlipsCoveredPixels : Obligations.DrawFlipsCoveredPixels := by
  intro x y n s hfits
  have hflag : (((s.present (spriteBlit s x y n).1).writeFlag (spriteBlit s x y n).2).advance).readV 0xF#4 =
      flagByte (spriteBlit s x y n).2 := State.readV_writeV_self _ flagReg _
  refine ⟨_, exec_drw_of_fits x y hfits, pixel_spriteBlit s x y n, ?_, ?_, rfl, rfl,
    regsUnchangedBut_writeV (s.present _) flagReg _, ?_⟩
  · rw [hflag]
    exact flagByte_eq_zero_or_one _
  · rw [hflag, flagByte_eq_one, collision_spriteBlit]
  · exact (((unchangedBut_present s _).trans (unchangedBut_writeV _ flagReg _)).trans
      (unchangedBut_advance _)).mono (by simp)

/-- A sprite covers some pixel exactly when one of its rows has a 1 bit. -/
theorem exists_spriteCovers_iff (row : Nat → Byte) (n : Nat) (vx vy : Byte) :
    (∃ px py, SpriteCovers row n vx vy px py) ↔ ∃ r : Fin n, row r.val ≠ 0#8 := by
  constructor
  · rintro ⟨px, py, r, c, hbit, -, -⟩
    refine ⟨r, fun hzero => ?_⟩
    simp [hzero] at hbit
  · rintro ⟨r, hrow⟩
    obtain ⟨b, hb, hbit⟩ : ∃ b, ∃ _ : b < 8, (row r.val).getLsbD b = true := by
      by_contra hnone
      push Not at hnone
      exact hrow (BitVec.eq_of_getLsbD_eq fun b hb => by simpa using hnone b hb)
    refine ⟨screenX vx (7 - b), screenY vy r.val, r, ⟨7 - b, by omega⟩, ?_, rfl, rfl⟩
    rw [show 7 - (7 - b) = b by omega, hbit]

/-- Settles O19: the first draw leaves X, Y, I and memory as they were, so the second flips the same pixels
and finds each of them as the first left it. -/
theorem drawTwiceRestoresScreen : Obligations.DrawTwiceRestoresScreen := by
  intro x y n s hx hy hfits
  obtain ⟨t, hexec, hpix, hvf, hhit, -, -, hregs, hframe⟩ := drawFlipsCoveredPixels x y n s hfits
  have hi : t.i = s.i := hframe .i (by simp)
  have hrows : spriteRow t = spriteRow s := by
    funext r
    rw [spriteRow, spriteRow, hi]
    exact hframe .mem (by simp) _
  have hvx : t.readV x = s.readV x := hregs x (by simpa using hx)
  have hvy : t.readV y = s.readV y := hregs y (by simpa using hy)
  obtain ⟨u, hexec', hpix', -, hhit', -⟩ := drawFlipsCoveredPixels x y n t (by rwa [hi])
  rw [hrows, hvx, hvy] at hpix' hhit'
  have hhit_iff : u.readV 0xF#4 = 1#8 ↔ ∃ px py,
      SpriteCovers (spriteRow s) n.toNat (s.readV x) (s.readV y) px py ∧ pixel s.fb px py = false := by
    rw [hhit']
    refine exists_congr fun px => exists_congr fun py => and_congr_right fun hcovers => ?_
    rw [hpix, decide_eq_true hcovers, Bool.xor_true, Bool.not_eq_true']
  refine ⟨t, u, hexec, hexec', fun px py => ?_, hhit_iff, fun hclear => ⟨?_, ?_⟩⟩
  · rw [hpix', hpix, Bool.xor_assoc, Bool.xor_self, Bool.xor_false]
  · refine hvf.resolve_right fun hone => ?_
    obtain ⟨px, py, hcovers, hset⟩ := hhit.mp hone
    rw [hclear px py hcovers] at hset
    cases hset
  · have hcovers_iff : u.readV 0xF#4 = 1#8 ↔
        ∃ px py, SpriteCovers (spriteRow s) n.toNat (s.readV x) (s.readV y) px py := by
      rw [hhit_iff]
      exact exists_congr fun px => exists_congr fun py => and_iff_left_of_imp (hclear px py)
    rw [hcovers_iff, exists_spriteCovers_iff]
    exact ⟨fun ⟨r, hr⟩ => ⟨⟨r.val, by omega⟩, r.isLt, hr⟩, fun ⟨r, hlt, hr⟩ => ⟨⟨r.val, hlt⟩, hr⟩⟩

/-! ## The loader (R55, R213) -/

theorem loadRom_of_le {s : State} {rom : List Byte} (h : rom.length ≤ 3584) :
    s.loadRom rom = .ok (s.setMem (s.mem.writeList 0x200 rom)) := if_pos h

/-- Settles O59: a load that fits is a store at 0x200, and a longer image is refused before it. -/
theorem loaderCopiesImageVerbatim : Obligations.LoaderCopiesImageVerbatim := by
  refine fun s rom hm => ⟨fun hlen => ?_, fun hlen => if_neg (Nat.not_le.mpr hlen)⟩
  have hfits : 0x200 + rom.length ≤ 4096 := by omega
  exact ⟨_, loadRom_of_le hlen, fun k => Memory.read_writeList_add hm hfits k.val k.isLt,
    fun a => Memory.read_writeList_outside hm hfits, unchangedBut_setMem s _⟩

/-- Settles O60: after the reset PC is 0x200, where the load puts the image's first two bytes. -/
theorem firstCycleFetchesImageStart : Obligations.FirstCycleFetchesImageStart := by
  intro s b0 b1 rest hrest
  have hlen : (b0 :: b1 :: rest).length = rest.length + 2 := rfl
  have hfits : 0x200 + (b0 :: b1 :: rest).length ≤ 4096 := by omega
  have hread := Memory.read_writeList_add (m := s.reinitialize.mem) (bs := b0 :: b1 :: rest) rfl hfits
  refine ⟨_, loadRom_of_le (by omega), rfl, ?_⟩
  refine (fetch_of_pc_le (show (0x200#16).toNat ≤ 0xFFE by decide)).trans ?_
  exact congrArg₂ (fun b c => Except.ok (wordOfBytes b c)) (hread 0 (by omega)) (hread 1 (by omega))

end Sys2Proof.Machine

/-! The obligations about every instruction at once: which fields and registers it writes, and what it
keeps of the bounds of PC and of the form of memory (R10, R11, R16, R21). -/

namespace Sys2Proof.Machine

/-! ## The instructions that can raise or wait, by what they can end in

Every other instruction ends in one known state, whatever the state it began in. -/

/-- An execute stage answers one state. -/
theorem eq_of_exec_eq {i : Instr} {s t u : State} (ht : exec i s = .next t) (hu : exec i s = .next u) :
    u = t := by
  rw [ht] at hu
  exact (Host.Outcome.next.inj hu).symm

theorem exec_call_cases {nnn : Addr12} {s t : State} (h : exec (.call nnn) s = .next t) :
    (∃ hroom, t = (s.pushed s.pc hroom).setPc (addressOperand nnn)) ∨ ∃ f, t = s.raise f := by
  by_cases hroom : s.sp.val < 16
  · exact .inl ⟨hroom, eq_of_exec_eq (exec_call_of_lt nnn hroom) h⟩
  · exact .inr ⟨_, eq_of_exec_eq (exec_call_of_full nnn (by omega)) h⟩

theorem exec_ret_cases {s t : State} (h : exec .ret s = .next t) :
    (∃ _ : s.sp.val ≠ 0, t = s.popped.setPc (s.stack[s.sp.val - 1] + 2#16)) ∨ ∃ f, t = s.raise f := by
  by_cases hempty : s.sp.val = 0
  · exact .inr ⟨_, eq_of_exec_eq (exec_ret_of_empty hempty) h⟩
  · exact .inl ⟨hempty, eq_of_exec_eq (exec_ret_of_pos hempty) h⟩

theorem exec_drw_cases {x y : Reg} {n : Nibble} {s t : State} (h : exec (.drw x y n) s = .next t) :
    (∃ fb flag, t = ((s.present fb).writeFlag flag).advance) ∨ ∃ f, t = s.raise f := by
  by_cases hfits : n = 0#4 ∨ s.i.toNat + n.toNat ≤ 4096
  · exact .inl ⟨_, _, eq_of_exec_eq (exec_drw_of_fits x y hfits) h⟩
  · obtain ⟨hn, hover⟩ := not_or.mp hfits
    exact .inr ⟨_, eq_of_exec_eq (exec_drw_of_overrun x y hn (by omega)) h⟩

theorem exec_ldB_cases {x : Reg} {s t : State} (h : exec (.ldB x) s = .next t) :
    (s.i.toNat + 3 ≤ 4096 ∧ t = (s.setMem (s.mem.writeList s.i.toNat (bcdDigits (s.readV x)))).advance) ∨
      ∃ f, t = s.raise f := by
  by_cases hfits : s.i.toNat + 3 ≤ 4096
  · exact .inl ⟨hfits, eq_of_exec_eq (exec_ldB_of_fits x hfits) h⟩
  · exact .inr ⟨_, eq_of_exec_eq (exec_ldB_of_overrun x (by omega)) h⟩

theorem exec_storeRegs_cases {x : Reg} {s t : State} (h : exec (.storeRegs x) s = .next t) :
    (s.i.toNat + runLength x ≤ 4096 ∧ t = ((s.setMem (s.mem.writeList s.i.toNat
      (s.readVList 0 (runLength x)))).setI (indexPast s.i x)).advance) ∨ ∃ f, t = s.raise f := by
  by_cases hfits : s.i.toNat + runLength x ≤ 4096
  · exact .inl ⟨hfits, eq_of_exec_eq (exec_storeRegs_of_fits x hfits) h⟩
  · exact .inr ⟨_, eq_of_exec_eq (exec_storeRegs_of_overrun x (by omega)) h⟩

theorem exec_loadRegs_cases {x : Reg} {s t : State} (h : exec (.loadRegs x) s = .next t) :
    t = ((s.writeVList 0 (s.mem.readList s.i.toNat (runLength x))).setI (indexPast s.i x)).advance ∨
      ∃ f, t = s.raise f := by
  by_cases hfits : s.i.toNat + runLength x ≤ 4096
  · exact .inl (eq_of_exec_eq (exec_loadRegs_of_fits x hfits) h)
  · exact .inr ⟨_, eq_of_exec_eq (exec_loadRegs_of_overrun x (by omega)) h⟩

theorem exec_ldVxK_cases {x : Reg} {s t : State} (h : exec (.ldVxK x) s = .next t) :
    (∃ b, t = (s.writeV x b).advance) ∨ t = s.setStatus .awaitingKey := by
  cases hk : s.lowestKey with
  | some k => exact .inl ⟨_, eq_of_exec_eq (exec_ldVxK_of_some x hk) h⟩
  | none => exact .inr (eq_of_exec_eq (exec_ldVxK_of_none x hk) h)

/-! ## Which fields an instruction writes -/

theorem unchangedBut_pc_of_skipIf {s t : State} {cond : Bool} (h : skipIf cond s = .next t) :
    UnchangedBut [.pc] s t := by
  cases h
  cases cond
  · exact unchangedBut_advance s
  · exact unchangedBut_setPc s _

/-- Settles O42: instruction by instruction, the frame of its updates put together, or its raise. -/
theorem instructionsWriteOnlyTheirFields : Obligations.InstructionsWriteOnlyTheirFields := by
  intro i s t h
  cases i
  case call nnn =>
    rcases exec_call_cases h with ⟨hroom, rfl⟩ | ⟨f, rfl⟩
    · exact .inl (((unchangedBut_pushed s _ hroom).trans (unchangedBut_setPc _ _)).mono (by simp [mayWrite]))
    · exact .inr ⟨f, raisedOver_raise s f⟩
  case ret =>
    rcases exec_ret_cases h with ⟨-, rfl⟩ | ⟨f, rfl⟩
    · exact .inl ((unchangedBut_popped s).trans (unchangedBut_setPc _ _) |>.mono (by simp [mayWrite]))
    · exact .inr ⟨f, raisedOver_raise s f⟩
  case drw x y n =>
    rcases exec_drw_cases h with ⟨fb, flag, rfl⟩ | ⟨f, rfl⟩
    · exact .inl ((((unchangedBut_present s fb).trans (unchangedBut_writeV _ flagReg _)).trans
        (unchangedBut_advance _)).mono (by simp [mayWrite]))
    · exact .inr ⟨f, raisedOver_raise s f⟩
  case ldB x =>
    rcases exec_ldB_cases h with ⟨-, rfl⟩ | ⟨f, rfl⟩
    · exact .inl (((unchangedBut_setMem s _).trans (unchangedBut_advance _)).mono (by simp [mayWrite]))
    · exact .inr ⟨f, raisedOver_raise s f⟩
  case storeRegs x =>
    rcases exec_storeRegs_cases h with ⟨-, rfl⟩ | ⟨f, rfl⟩
    · exact .inl ((((unchangedBut_setMem s _).trans (unchangedBut_setI _ _)).trans
        (unchangedBut_advance _)).mono (by simp [mayWrite]))
    · exact .inr ⟨f, raisedOver_raise s f⟩
  case loadRegs x =>
    rcases exec_loadRegs_cases h with rfl | ⟨f, rfl⟩
    · exact .inl ((((unchangedBut_writeVList s 0 _).trans (unchangedBut_setI _ _)).trans
        (unchangedBut_advance _)).mono (by simp [mayWrite]))
    · exact .inr ⟨f, raisedOver_raise s f⟩
  all_goals left
  case ldVxK x =>
    rcases exec_ldVxK_cases h with ⟨b, rfl⟩ | rfl
    · exact ((unchangedBut_writeV s x b).trans (unchangedBut_advance _)).mono (by simp [mayWrite])
    · exact (unchangedBut_setStatus s _).mono (by simp [mayWrite])
  case seImm | sneImm | seReg | sneReg | skp | sknp => exact unchangedBut_pc_of_skipIf h
  all_goals cases h
  case jp | jpV0 => exact unchangedBut_setPc s _
  case ldImm | addImm | ldReg | orReg | andReg | xorReg | ldVxDt =>
    exact ((unchangedBut_writeV s _ _).trans (unchangedBut_advance _)).mono (by simp [mayWrite])
  case addReg | subReg | shr | subnReg | shl =>
    exact ((unchangedBut_writeResultAndFlag s _ _ _).trans (unchangedBut_advance _)).mono (by simp [mayWrite])
  case sys => exact (unchangedBut_setStatus s _).mono (by simp [mayWrite])
  case cls => exact ((unchangedBut_present s _).trans (unchangedBut_advance _)).mono (by simp [mayWrite])
  case ldI | ldF => exact ((unchangedBut_setI s _).trans (unchangedBut_advance _)).mono (by simp [mayWrite])
  case ldDtVx => exact ((unchangedBut_setDt s _).trans (unchangedBut_advance _)).mono (by simp [mayWrite])
  case ldStVx => exact ((unchangedBut_setSt s _).trans (unchangedBut_advance _)).mono (by simp [mayWrite])
  case addI =>
    exact (((unchangedBut_setI s _).trans (unchangedBut_writeV _ flagReg _)).trans
      (unchangedBut_advance _)).mono (by simp [mayWrite])
  case rnd =>
    exact (((unchangedBut_draw8 s).trans (unchangedBut_writeV _ _ _)).trans
      (unchangedBut_advance _)).mono (by simp [mayWrite])

/-- A field that is neither PC nor in the instruction's list stays as it was where the engine runs on. -/
theorem sameField_of_exec {i : Instr} {s t : State} {g : Field} (h : exec i s = .next t)
    (hrun : t.run = .running) (hg : g ∉ .pc :: mayWrite i) : SameField g s t := by
  rcases instructionsWriteOnlyTheirFields i s t h with hframe | ⟨f, hhalt, -⟩
  · exact hframe g hg
  · rw [hrun] at hhalt
    cases hhalt

/-! ## Which registers an instruction writes -/

/-- Settles O43: an instruction that does not write the register file keeps all of it, and each of the
others writes its destination, VF or the run V0..VX. -/
theorem registersChangeOnlyAsDestinations : Obligations.RegistersChangeOnlyAsDestinations := by
  intro i s t r h hr
  by_cases hv : .v ∈ mayWrite i
  · cases i <;> simp [mayWrite] at hv <;> simp [mayWriteReg] at hr
    case drw x y n =>
      rcases exec_drw_cases h with ⟨fb, flag, rfl⟩ | ⟨f, rfl⟩
      · exact regsUnchangedBut_writeV (s.present fb) flagReg _ r (by simpa [flagReg] using hr)
      · rfl
    case loadRegs x =>
      rcases exec_loadRegs_cases h with rfl | ⟨f, rfl⟩
      · have habove : ¬r.toNat < runLength x := Nat.not_lt.mpr hr
        exact (readV_writeVList_readList s _ _ x.isLt r).trans (if_neg habove)
      · rfl
    case ldVxK x =>
      rcases exec_ldVxK_cases h with ⟨b, rfl⟩ | rfl
      · exact regsUnchangedBut_writeV s x b r (by simpa using hr)
      · rfl
    case ldImm | addImm | ldReg | orReg | andReg | xorReg | ldVxDt | rnd =>
      cases h
      exact regsUnchangedBut_writeV _ _ _ r (by simpa using hr)
    case addI =>
      cases h
      exact regsUnchangedBut_writeV (s.setI _) flagReg _ r (by simpa [flagReg] using hr)
    all_goals
      cases h
      exact regsUnchangedBut_writeResultAndFlag s _ _ _ r (by simpa using hr)
  · rcases instructionsWriteOnlyTheirFields i s t h with hframe | ⟨f, -, -, -, hframe⟩
    · exact hframe .v (by simpa using hv) r
    · exact hframe .v (by simp) r

/-! ## The bounds of PC and of the held addresses (R16) -/

/-- PC moves by at most two words from a fetched address, or to an address that the operands give. -/
theorem pc_le_of_exec {i : Instr} {s t : State} (hi : i ≠ .ret) (hpc : s.pc.toNat ≤ 0xFFE)
    (h : exec i s = .next t) : t.pc.toNat ≤ 0x10FE := by
  have hstay : s.pc.toNat ≤ 0x10FE := by omega
  have htwo : (s.pc + 2#16).toNat ≤ 0x10FE := by bv_omega
  have hfour : (s.pc + 4#16).toNat ≤ 0x10FE := by bv_omega
  have htarget (nnn : Addr12) : (addressOperand nnn).toNat ≤ 0x10FE := by
    rw [addressOperand_toNat]
    omega
  cases i
  case ret => exact absurd rfl hi
  case call nnn =>
    rcases exec_call_cases h with ⟨_, rfl⟩ | ⟨f, rfl⟩
    · exact htarget nnn
    · exact hstay
  case drw x y n =>
    rcases exec_drw_cases h with ⟨fb, flag, rfl⟩ | ⟨f, rfl⟩
    · exact htwo
    · exact hstay
  case ldB x =>
    rcases exec_ldB_cases h with ⟨-, rfl⟩ | ⟨f, rfl⟩
    · exact htwo
    · exact hstay
  case storeRegs x =>
    rcases exec_storeRegs_cases h with ⟨-, rfl⟩ | ⟨f, rfl⟩
    · exact htwo
    · exact hstay
  case loadRegs x =>
    rcases exec_loadRegs_cases h with rfl | ⟨f, rfl⟩
    · simpa using htwo
    · exact hstay
  case ldVxK x =>
    rcases exec_ldVxK_cases h with ⟨b, rfl⟩ | rfl
    · exact htwo
    · exact hstay
  all_goals cases h
  case jp nnn => exact htarget nnn
  case jpV0 nnn =>
    have hsum : nnn.toNat + (s.readV 0#4).toNat ≤ 0x10FE := by omega
    rwa [← indexedTarget_toNat] at hsum
  case sys nnn => exact hstay
  case seImm | sneImm | seReg | sneReg | skp | sknp =>
    split
    · exact hfour
    · exact htwo
  all_goals exact htwo

/-- The held addresses of a state are all fetchable: the second half of `PcBounded`. -/
def HeldFetchable (s : State) : Prop := ∀ k : Fin 16, k.val < s.sp.val → s.stack[k.val].toNat ≤ 0xFFE

/-- A call pushes the address that it was fetched from, and a return pops. -/
theorem heldFetchable_of_exec {i : Instr} {s t : State} (hpc : s.pc.toNat ≤ 0xFFE) (hs : HeldFetchable s)
    (h : exec i s = .next t) : HeldFetchable t := by
  by_cases hsp : .sp ∈ mayWrite i
  · cases i <;> simp [mayWrite] at hsp
    case call nnn =>
      rcases exec_call_cases h with ⟨hroom, rfl⟩ | ⟨f, rfl⟩
      · intro k hk
        have hlt : k.val < s.sp.val + 1 := hk
        by_cases hnew : k.val = s.sp.val
        · obtain rfl : k = ⟨s.sp.val, hroom⟩ := Fin.ext hnew
          exact (pushed_stack_self s s.pc hroom).symm ▸ hpc
        · exact (pushed_stack_of_ne s s.pc hroom k hnew).symm ▸ hs k (by omega)
      · exact hs
    case ret =>
      rcases exec_ret_cases h with ⟨_, rfl⟩ | ⟨f, rfl⟩
      · exact fun k hk => hs k (Nat.lt_of_lt_of_le hk (Nat.sub_le _ 1))
      · exact hs
  · have hstack : .stack ∉ mayWrite i := by
      cases i <;> simp [mayWrite] at hsp ⊢
    have hframe : SameField .sp s t ∧ SameField .stack s t := by
      rcases instructionsWriteOnlyTheirFields i s t h with hframe | ⟨f, -, -, -, hframe⟩
      · exact ⟨hframe .sp (by simpa using hsp), hframe .stack (by simpa using hstack)⟩
      · exact ⟨hframe .sp (by simp), hframe .stack (by simp)⟩
    obtain ⟨hsp_eq, hstack_eq⟩ : t.sp = s.sp ∧ ∀ k : Fin 16, t.stack[k.val] = s.stack[k.val] := hframe
    intro k hk
    rw [hstack_eq]
    exact hs k (hsp_eq ▸ hk)

theorem pcBounded_of_exec {i : Instr} {s t : State} (hpc : s.pc.toNat ≤ 0xFFE) (hs : HeldFetchable s)
    (h : exec i s = .next t) : PcBounded t := by
  refine ⟨?_, heldFetchable_of_exec hpc hs h⟩
  by_cases hi : i = .ret
  · subst hi
    rcases exec_ret_cases h with ⟨hpos, rfl⟩ | ⟨f, rfl⟩
    · have htop := hs ⟨s.sp.val - 1, by omega⟩ (by simp only; omega)
      have hnext : (s.stack[s.sp.val - 1] + 2#16).toNat ≤ 0x10FE := by bv_omega
      exact hnext
    · exact hpc.trans (by decide)
  · exact pc_le_of_exec hi hpc h

/-- Settles O48: an executed instruction was fetched from 0xFFE or below, and every other cycle leaves PC and
the stack alone. -/
theorem stepKeepsPcBounded : Obligations.StepKeepsPcBounded := by
  intro s t hs h
  rcases step_cases s t h with ⟨f, -, rfl⟩ | ⟨-, -, rfl⟩ | ⟨-, -, rfl⟩ | ⟨⟨-, hpc⟩, i, u, -, hu, hend⟩
  · exact hs
  · exact hs
  · exact hs
  · rcases hend with ⟨-, -, rfl⟩ | ⟨f, -, rfl⟩
    · have hu' : PcBounded u := pcBounded_of_exec (s := s.beginExecute) hpc hs.2 hu
      exact hu'
    · exact hs

/-! ## The canonical form of memory (R21) -/

theorem memCanonical_of_exec {i : Instr} {s t : State} (hs : MemCanonical s) (h : exec i s = .next t) :
    MemCanonical t := by
  cases i
  case ldB x =>
    rcases exec_ldB_cases h with ⟨hfits, rfl⟩ | ⟨f, rfl⟩
    · exact Memory.wf_writeList _ _ _ hs hfits
    · exact hs
  case storeRegs x =>
    rcases exec_storeRegs_cases h with ⟨hfits, rfl⟩ | ⟨f, rfl⟩
    · exact Memory.wf_writeList _ _ _ hs (by rwa [State.length_readVList])
    · exact hs
  case call nnn => rcases exec_call_cases h with ⟨_, rfl⟩ | ⟨f, rfl⟩ <;> exact hs
  case ret => rcases exec_ret_cases h with ⟨_, rfl⟩ | ⟨f, rfl⟩ <;> exact hs
  case drw x y n => rcases exec_drw_cases h with ⟨fb, flag, rfl⟩ | ⟨f, rfl⟩ <;> exact hs
  case loadRegs x =>
    rcases exec_loadRegs_cases h with rfl | ⟨f, rfl⟩
    · simpa [MemCanonical] using hs
    · exact hs
  case ldVxK x => rcases exec_ldVxK_cases h with ⟨b, rfl⟩ | rfl <;> exact hs
  all_goals cases h
  case seImm | sneImm | seReg | sneReg | skp | sknp => split <;> exact hs
  all_goals exact hs

/-- Settles O50: only the two stores touch memory, and what they write lies inside it. -/
theorem stepKeepsMemoryCanonical : Obligations.StepKeepsMemoryCanonical := by
  intro s t hs h
  rcases step_cases s t h with ⟨f, -, rfl⟩ | ⟨-, -, rfl⟩ | ⟨-, -, rfl⟩ | ⟨-, i, u, -, hu, hend⟩
  · exact hs
  · exact hs
  · exact hs
  · rcases hend with ⟨-, -, rfl⟩ | ⟨f, -, rfl⟩
    · have hu' : MemCanonical u := memCanonical_of_exec (s := s.beginExecute) hs hu
      exact hu'
    · exact hs

/-- Settles O49: at reset no address is held and no cell of memory is listed. -/
theorem resetMeetsInvariants : Obligations.ResetMeetsInvariants := by
  have hpc : State.reset.pc.toNat ≤ 0x10FE := by decide
  exact ⟨⟨hpc, fun k hk => absurd hk (Nat.not_lt_zero _)⟩, rfl⟩

end Sys2Proof.Machine

/-! The obligations about the cycle, the timers, the faults and the end of a run (R80 to R93, R165, R178 to
R186, R221). -/

namespace Sys2Proof.Machine

/-! ## What a cycle answers, stage by stage -/

theorem step_of_halted {s : State} {f : EngineFault} (h : s.run = .halted f) :
    step s = .next (s.haltedCycle f) := by
  simp only [step, h]

theorem step_of_pc_gt {s : State} (hrun : s.run = .running) (hpc : 0xFFE < s.pc.toNat) :
    step s = .next (s.raise (.memoryFault (max s.pc.toNat 4096))) := by
  simp only [step, hrun, fetch_of_pc_gt hpc]

/-- After execute the tick runs, unless the engine has halted (R80, R84). -/
theorem State.endExecute_eq (s : State) : s.endExecute = if s.run = .running then s.tick else s := by
  unfold State.endExecute
  cases h : s.run with
  | running => rw [if_pos rfl]
  | halted f => rw [if_neg nofun]

theorem step_of_undefined {s : State} {e : DecodeReject} (hs : CanFetch s)
    (hd : decode (wordAtPc s) = .error e) : step s = .next (s.reportDecodeError (wordAtPc s)).tick := by
  obtain ⟨hrun, hpc⟩ := hs
  have hend : (s.beginExecute.reportDecodeError (wordAtPc s)).endExecute =
      (s.reportDecodeError (wordAtPc s)).tick := by
    rw [State.endExecute_eq]
    exact if_pos hrun
  simp only [step, hrun, fetch_of_pc_le hpc, hd, hend]

theorem step_of_exec {s t : State} {i : Instr} (hs : CanFetch s) (hd : decode (wordAtPc s) = .ok i)
    (ht : exec i s.beginExecute = .next t) : step s = .next (if t.run = .running then t.tick else t) := by
  obtain ⟨hrun, hpc⟩ := hs
  simp only [step, hrun, fetch_of_pc_le hpc, hd, ht, endCycle, State.endExecute_eq]

/-- The cycle of an instruction that completes: its execute stage, ticked. -/
theorem step_of_exec_running {s t : State} {i : Instr} (hs : CanFetch s) (hd : decode (wordAtPc s) = .ok i)
    (ht : exec i s.beginExecute = .next t) (hrun : t.run = .running) : step s = .next t.tick := by
  rw [step_of_exec hs hd ht, if_pos hrun]

/-- Settles O32: an execute stage always answers a next state, which the cycle ends with a tick unless it
has halted. -/
theorem stepExecutesDecodedInstruction : Obligations.StepExecutesDecodedInstruction := by
  intro s i hs hd
  obtain ⟨t, ht, -⟩ := exec_answers_next i s.beginExecute
  exact ⟨t, ht, step_of_exec hs hd ht⟩

/-- Settles O33: the fetch raises over the state that the cycle began in. -/
theorem fetchOutsideMemoryFaults : Obligations.FetchOutsideMemoryFaults := fun s hrun hpc =>
  ⟨_, step_of_pc_gt hrun hpc, raisedOver_raise s _⟩

/-! ## The timers (R185, R186, R221) -/

theorem countDown_toNat (b : Byte) : (countDown b).toNat = b.toNat - 1 := by
  have hb := b.isLt
  simp only [countDown, BitVec.toNat_ofNat]
  omega

theorem beepEdge_eq (st : Byte) : beepEdge st = decide (st.toNat = 1) := by
  rw [beepEdge, Bool.beq_eq_decide_eq]
  exact decide_eq_decide.mpr BitVec.toNat_inj.symm

theorem tick_beep_eq (s : State) : s.tick.beep = some (decide (s.st.toNat = 1)) :=
  congrArg some (beepEdge_eq s.st)

/-- Settles O34: a timer counts down by one and stops at 0, and the beep is the step of ST from 1. -/
theorem tickCountsDownAndStops : Obligations.TickCountsDownAndStops := fun s =>
  ⟨countDown_toNat s.dt, countDown_toNat s.st, tick_beep_eq s, unchangedBut_tick s⟩

/-- Settles O35: the tick of the cycle finds in the timer what the instruction has just written. -/
theorem timerWriteTicksInItsCycle : Obligations.TimerWriteTicksInItsCycle := by
  refine fun s x hs => ⟨fun hd => ?_, fun hd => ?_⟩
  · exact ⟨_, step_of_exec_running hs hd (exec_ldDtVx x _) hs.1, countDown_toNat _, countDown_toNat _⟩
  · exact ⟨_, step_of_exec_running hs hd (exec_ldStVx x _) hs.1, countDown_toNat _, countDown_toNat _,
      tick_beep_eq _⟩

/-! ## Undefined words (R165, R166) -/

/-- The word at PC is no defined instruction: undefined, or of the reserved slot. -/
def UndefinedAtPc (s : State) : Prop :=
  (∃ e, decode (wordAtPc s) = .error e) ∨ ∃ nnn, decode (wordAtPc s) = .ok (.sys nnn)

/-- A word of the reserved slot is its own NNN. -/
theorem addressOperand_of_decode_sys {w : Word} {nnn : Addr12} (hd : decode w = .ok (.sys nnn)) :
    addressOperand nnn = w := by
  obtain ⟨-, hw⟩ := standsFor_of_decode hd
  apply BitVec.eq_of_toNat_eq
  rw [← hw, encode, toNat_formatFA, addressOperand_toNat, BitVec.toNat_zero, Nat.zero_mul, Nat.zero_add]

/-- Both kinds of word have one cycle: the report of the word, ticked. -/
theorem step_of_undefinedAtPc {s : State} (hs : CanFetch s) (hu : UndefinedAtPc s) :
    step s = .next (s.reportDecodeError (wordAtPc s)).tick := by
  rcases hu with ⟨e, hd⟩ | ⟨nnn, hd⟩
  · exact step_of_undefined hs hd
  · rw [step_of_exec_running hs hd (exec_sys nnn _) hs.1, addressOperand_of_decode_sys hd]
    rfl

theorem unchangedBut_report_tick (s : State) (w : Word) :
    UnchangedBut [.dt, .st, .status, .beep] s (s.reportDecodeError w).tick :=
  ((unchangedBut_setStatus s _).trans (unchangedBut_tick _)).mono (by simp)

/-- Settles O29: the report of the word changes the status alone, and the tick the timers and the beep. -/
theorem undefinedWordReportsAndTicks : Obligations.UndefinedWordReportsAndTicks := fun s hs hu =>
  ⟨_, step_of_undefinedAtPc hs hu, rfl, countDown_toNat s.dt, countDown_toNat s.st, tick_beep_eq s,
    unchangedBut_report_tick s _⟩

/-- The first of `n + 1` cycles. -/
theorem core_run_succ {s t : State} (h : step s = .next t) (n : Nat) : core.run (n + 1) s = core.run n t := by
  have hcore : core.step s = .next t := h
  simp only [Host.Core.run, hcore]

/-- Settles O30, by induction on the number of cycles: one leaves a state that can fetch the same word. -/
theorem undefinedWordIsLivelock : Obligations.UndefinedWordIsLivelock := by
  intro s n hs hu
  induction n generalizing s with
  | zero => exact ⟨s, rfl, rfl, rfl, (unchangedBut_refl s).mono (by simp)⟩
  | succ n ih =>
    obtain ⟨t, hrun, hdt, hst, hframe⟩ := ih (s.reportDecodeError (wordAtPc s)).tick hs hu
    rw [State.tick_dt, countDown_toNat] at hdt
    rw [State.tick_st, countDown_toNat] at hst
    refine ⟨t, (core_run_succ (step_of_undefinedAtPc hs hu) n).trans hrun, ?_, ?_, ?_⟩
    · rw [hdt, State.reportDecodeError_dt]
      omega
    · rw [hst, State.reportDecodeError_st]
      omega
    · exact ((unchangedBut_report_tick s _).trans hframe).mono (by simp)

/-! ## The outputs of a cycle (R85, R183, R186) -/

/-- A status of its own kind comes from `FX0A` and from the reserved slot alone. -/
theorem status_of_exec {i : Instr} {s t : State} (h : exec i s = .next t) (hrun : t.run = .running) :
    t.status = some .awaitingKey ∨ (∃ w, t.status = some (.decodeError w)) ∨
      ((∀ nnn, i ≠ .sys nnn) ∧ t.status = s.status) := by
  by_cases hi : .status ∈ mayWrite i
  · cases i <;> simp [mayWrite] at hi
    case sys nnn =>
      cases h
      exact .inr (.inl ⟨_, rfl⟩)
    case ldVxK x =>
      rcases exec_ldVxK_cases h with ⟨b, rfl⟩ | rfl
      · exact .inr (.inr ⟨nofun, rfl⟩)
      · exact .inl rfl
  · refine .inr (.inr ⟨?_, sameField_of_exec (g := .status) h hrun (by simpa using hi)⟩)
    rintro nnn rfl
    exact hi (by simp [mayWrite])

/-- Settles O37: a halt, a fetch outside memory, an undefined word and a raise each say so; an execute stage
that runs on keeps the status `Ok` it began with, or writes one of the other two. -/
theorem noFailureIsSilent : Obligations.NoFailureIsSilent := by
  intro s t h
  rcases step_cases s t h with ⟨f, -, rfl⟩ | ⟨-, -, rfl⟩ | ⟨-, -, rfl⟩ | ⟨⟨hrun, -⟩, i, u, hd, hu, hend⟩
  · exact .inl (.inr (.inr ⟨f, rfl⟩))
  · exact .inl (.inr (.inr ⟨_, rfl⟩))
  · exact .inl (.inr (.inl ⟨_, rfl⟩))
  · rcases hend with ⟨hurun, -, rfl⟩ | ⟨f, -, rfl⟩
    · rcases status_of_exec hu hurun with hwait | ⟨w, hdecode⟩ | ⟨hsys, hok⟩
      · exact .inl (.inl hwait)
      · exact .inl (.inr (.inl ⟨w, hdecode⟩))
      · exact .inr ⟨hok, hrun, hurun, i, hd, hsys, u, hu, hurun, rfl⟩
    · exact .inl (.inr (.inr ⟨f, rfl⟩))

/-- The four stages of `step` each answer a next state. -/
theorem step_answers_next (s : State) : ∃ t, step s = .next t := by
  cases hrun : s.run with
  | halted f => exact ⟨_, step_of_halted hrun⟩
  | running =>
    by_cases hpc : s.pc.toNat ≤ 0xFFE
    · cases hd : decode (wordAtPc s) with
      | error e => exact ⟨_, step_of_undefined ⟨hrun, hpc⟩ hd⟩
      | ok i =>
        obtain ⟨t, ht, -⟩ := exec_answers_next i s.beginExecute
        exact ⟨_, step_of_exec ⟨hrun, hpc⟩ hd ht⟩
    · exact ⟨_, step_of_pc_gt hrun (by omega)⟩

/-- Every cycle ends in a tick, a raise or the report of a halt, and each gives the beep. -/
theorem beep_ne_none_of_step {s t : State} (h : step s = .next t) : t.beep ≠ none := by
  rcases step_cases s t h with ⟨f, -, rfl⟩ | ⟨-, -, rfl⟩ | ⟨-, -, rfl⟩ | ⟨-, i, u, -, -, hend⟩
  · simp
  · simp
  · simp
  · rcases hend with ⟨-, -, rfl⟩ | ⟨f, -, rfl⟩ <;> simp

theorem status_ne_none_of_step {s t : State} (h : step s = .next t) : t.status ≠ none := by
  rcases noFailureIsSilent s t h with (hst | ⟨w, hst⟩ | ⟨f, hst⟩) | ⟨hst, -⟩ <;> simp [hst]

/-- Settles O38: the stages are total, and each leaves both outputs. -/
theorem stepAlwaysAnswersNextState : Obligations.StepAlwaysAnswersNextState := by
  intro s
  obtain ⟨t, ht⟩ := step_answers_next s
  exact ⟨t, ht, status_ne_none_of_step ht, beep_ne_none_of_step ht⟩

/-- ST after an execute stage that runs on: VX for `FX18`, and otherwise what it was. -/
theorem st_of_exec {i : Instr} {s t : State} (h : exec i s = .next t) (hrun : t.run = .running) :
    (∃ x, i = .ldStVx x ∧ t.st = s.readV x) ∨ ((∀ x, i ≠ .ldStVx x) ∧ t.st = s.st) := by
  by_cases hi : .st ∈ mayWrite i
  · cases i <;> simp [mayWrite] at hi
    case ldStVx x =>
      cases h
      exact .inl ⟨x, rfl, rfl⟩
  · refine .inr ⟨?_, sameField_of_exec (g := .st) h hrun (by simpa using hi)⟩
    rintro x rfl
    exact hi (by simp [mayWrite])

/-- A tick that beeps found ST at 1 and leaves it at 0. -/
theorem st_of_tick_beep {s : State} (h : s.tick.beep = some true) : s.st = 1#8 ∧ s.tick.st = 0#8 := by
  have hst : s.st = 1#8 := by simpa [beepEdge] using h
  exact ⟨hst, by rw [State.tick_st, hst]; rfl⟩

/-- Settles O36: only a tick beeps, and ST before it is what the execute stage left. -/
theorem beepOnlyOnTickFromOneToZero : Obligations.BeepOnlyOnTickFromOneToZero := by
  intro s t h hbeep
  rcases step_cases s t h with ⟨f, -, rfl⟩ | ⟨-, -, rfl⟩ | ⟨⟨hrun, -⟩, ⟨e, hd⟩, rfl⟩ |
    ⟨⟨hrun, -⟩, i, u, hd, hu, hend⟩
  · cases hbeep
  · cases hbeep
  · obtain ⟨hone, hzero⟩ := st_of_tick_beep hbeep
    exact ⟨hrun, hrun, hzero, .inl ⟨hone, fun x => by simp [hd]⟩⟩
  · rcases hend with ⟨hurun, -, rfl⟩ | ⟨f, -, rfl⟩
    · obtain ⟨hone, hzero⟩ := st_of_tick_beep hbeep
      refine ⟨hrun, hurun, hzero, ?_⟩
      rcases st_of_exec hu hurun with ⟨x, rfl, hst⟩ | ⟨hne, hst⟩
      · exact .inr ⟨x, hd, hst.symm.trans hone⟩
      · exact .inl ⟨hst.symm.trans hone, fun x => by simp [hd, hne x]⟩
    · cases hbeep

/-! ## Faults and the halted engine (R86, R179 to R182) -/

/-- Settles O39: a cycle that halts a running engine raised, over the state it began in. -/
theorem fatalFaultsArePrecise : Obligations.FatalFaultsArePrecise := by
  intro s t f hrun h hhalt
  rcases step_cases s t h with ⟨g, hg, -⟩ | ⟨-, -, rfl⟩ | ⟨-, -, rfl⟩ | ⟨-, i, u, -, -, hend⟩
  · rw [hrun] at hg
    cases hg
  · cases hhalt
    exact raisedOver_raise s _
  · rw [State.tick_run, State.reportDecodeError_run, hrun] at hhalt
    cases hhalt
  · rcases hend with ⟨hurun, -, rfl⟩ | ⟨g, -, rfl⟩
    · rw [State.tick_run, hurun] at hhalt
      cases hhalt
    · cases hhalt
      exact raisedOver_raise s _

/-- A second cycle of a halted engine leaves what the first left. -/
theorem run_of_halted (n : Nat) {s : State} {f : EngineFault} (h : s.run = .halted f) :
    core.run (n + 1) s = .next (s.haltedCycle f) := by
  induction n generalizing s with
  | zero => exact core_run_succ (step_of_halted h) 0
  | succ n ih => exact (core_run_succ (step_of_halted h) (n + 1)).trans (ih (s := s.haltedCycle f) h)

/-- Settles O40: every one of the cycles leaves the state of the first. -/
theorem haltedEngineStaysHalted : Obligations.HaltedEngineStaysHalted := fun s f n h =>
  ⟨_, run_of_halted n h, rfl, rfl, unchangedBut_haltedCycle s f⟩

theorem run_of_loadFrom {s t : State} {source : Option (List Byte)} (h : s.loadFrom source = .ok t) :
    t.run = s.run := by
  cases source with
  | none => cases h
  | some rom =>
    have hload : s.loadRom rom = .ok t := h
    unfold State.loadRom at hload
    split at hload
    · cases hload
      rfl
    · cases hload

/-- Settles O41: of the five acts one resets the machine, three leave RUN alone, and a cycle of a halted
engine only reports. -/
theorem onlyReinitializeEndsHalt : Obligations.OnlyReinitializeEndsHalt := by
  intro x y a f hhalt h
  cases a with
  | reinitialize =>
    cases h
    exact .inr ⟨rfl, rfl⟩
  | writeKeys keys =>
    cases h
    exact .inl ⟨hhalt, nofun⟩
  | clearRedraw =>
    cases h
    exact .inl ⟨hhalt, nofun⟩
  | load source =>
    refine .inl ⟨?_, nofun⟩
    simp only [Session.act] at h
    split at h
    · split at h
      · cases h
        exact (run_of_loadFrom ‹_›).trans hhalt
      · cases h
        exact hhalt
    all_goals cases h
  | cycle =>
    refine .inl ⟨?_, nofun⟩
    simp only [Session.act, step_of_halted hhalt] at h
    split at h
    · cases h
    all_goals
      cases h
      exact hhalt

/-! ## The end of a run (R93) -/

/-- A jump from a fetchable address to itself leaves the state as it was. -/
theorem exec_jp_self {s : State} (hpc : s.pc.toNat ≤ 0xFFE) : exec (.jp (s.pc.setWidth 12)) s = .next s := by
  have htarget : addressOperand (s.pc.setWidth 12) = s.pc := by
    apply BitVec.eq_of_toNat_eq
    rw [addressOperand_toNat, BitVec.toNat_setWidth]
    omega
  rw [exec_jp, htarget]
  rfl

/-- Settles O51: the jump to itself leaves everything to the tick, which leaves PC and memory. -/
theorem finishedProgramStaysFinished : Obligations.FinishedProgramStaysFinished := by
  rintro s ⟨hs, hword⟩
  have hd : decode (wordAtPc s) = .ok (.jp (s.pc.setWidth 12)) := by rw [hword, decode_formatFA_jp]
  have hexec : exec (.jp (s.pc.setWidth 12)) s.beginExecute = .next s.beginExecute :=
    exec_jp_self (s := s.beginExecute) hs.2
  refine ⟨_, step_of_exec_running hs hd hexec hs.1, ⟨hs, hword⟩, countDown_toNat s.dt, countDown_toNat s.st,
    rfl, ?_⟩
  exact ((unchangedBut_setStatus s .ok).trans (unchangedBut_tick _)).mono (by simp)

end Sys2Proof.Machine

/-! The obligations about what no cycle reads: ST, `REDRAW` and the outputs, dead stack entries, and the
keypad outside the three key instructions (R18, R19, R23, R24, R26).

Each of them compares two runs from states that are related. `Unread` says once what such a relation must
keep for the two runs to stay related, and each obligation gives its own relation. -/

namespace Sys2Proof.Machine

/-! ## Relations that no instruction can tell apart -/

/-- The updates that instructions are made of, beside the push. -/
inductive Update where
  | writeV (r : Reg) (b : Byte)
  | setI (w : Word)
  | setPc (w : Word)
  | setDt (b : Byte)
  | setSt (b : Byte)
  | setMem (m : Memory)
  | present (fb : Framebuffer)
  | setStatus (x : Status)
  | draw8
  | popped
  | raise (f : EngineFault)

/-- The state after an update. -/
def Update.apply (s : State) : Update → State
  | .writeV r b => s.writeV r b
  | .setI w => s.setI w
  | .setPc w => s.setPc w
  | .setDt b => s.setDt b
  | .setSt b => s.setSt b
  | .setMem m => s.setMem m
  | .present fb => s.present fb
  | .setStatus x => s.setStatus x
  | .draw8 => s.draw8.2
  | .popped => s.popped
  | .raise f => s.raise f

/-- All that an execute stage reads but the stack and the keypad, and what a cycle reads besides. -/
structure SameReads (s t : State) : Prop where
  v : t.v = s.v
  i : t.i = s.i
  pc : t.pc = s.pc
  dt : t.dt = s.dt
  sp : t.sp = s.sp
  mem : t.mem = s.mem
  fb : t.fb = s.fb
  run : t.run = s.run
  draws : t.draws = s.draws

/-- Related states read the same and stay related under whatever an instruction does to both of them. -/
structure Unread (R : State → State → Prop) : Prop where
  reads {s t : State} : R s t → SameReads s t
  update {s t : State} : R s t → ∀ op : Update, R (op.apply s) (op.apply t)
  pushed {s t : State} : R s t → ∀ a (hs : s.sp.val < 16) (ht : t.sp.val < 16),
    R (s.pushed a hs) (t.pushed a ht)
  top {s t : State} : R s t → ∀ k : Fin 16, k.val < s.sp.val → t.stack[k.val] = s.stack[k.val]

/-- Two execute stages that both answer a next state, and these are related. -/
def Related (R : State → State → Prop) (o o' : Host.Outcome State Fault Refusal) : Prop :=
  ∃ s t, o = .next s ∧ o' = .next t ∧ R s t

section
variable {R : State → State → Prop} (hR : Unread R) {s t : State} (h : R s t)
include hR h

theorem Unread.readV (r : Reg) : t.readV r = s.readV r := by
  simp only [State.readV, (hR.reads h).v]

theorem Unread.readVList (n : Nat) : ∀ k, t.readVList k n = s.readVList k n := by
  induction n with
  | zero => exact fun _ => rfl
  | succ n ih => exact fun k => congrArg₂ List.cons (hR.readV h _) (ih (k + 1))

theorem Unread.setPc (w : Word) : R (s.setPc w) (t.setPc w) := hR.update h (.setPc w)

theorem Unread.advance : R s.advance t.advance := by
  rw [State.advance, State.advance, (hR.reads h).pc]
  exact hR.setPc h _

theorem Unread.finishResult (x : Reg) (b : Byte) : Related R (finishResult x b s) (finishResult x b t) :=
  ⟨_, _, rfl, rfl, hR.advance (hR.update h (.writeV x b))⟩

theorem Unread.finishResultAndFlag (x : Reg) (b : Byte) (flag : Bool) :
    Related R (finishResultAndFlag x b flag s) (finishResultAndFlag x b flag t) :=
  ⟨_, _, rfl, rfl, hR.advance (hR.update (hR.update h (.writeV x b)) (.writeV flagReg (flagByte flag)))⟩

theorem Unread.skipIf (cond : Bool) : Related R (skipIf cond s) (skipIf cond t) := by
  refine ⟨_, _, rfl, rfl, ?_⟩
  cases cond
  · exact hR.advance h
  · rw [if_pos rfl, if_pos rfl, (hR.reads h).pc]
    exact hR.setPc h _

theorem Unread.settle_error (f : EngineFault) : Related R (s.settle (.error f)) (t.settle (.error f)) :=
  ⟨_, _, rfl, rfl, hR.update h (.raise f)⟩

end

theorem Unread.writeVList {R : State → State → Prop} (hR : Unread R) (bs : List Byte) :
    ∀ {s t : State} (k : Nat), R s t → R (s.writeVList k bs) (t.writeVList k bs) := by
  induction bs with
  | nil => exact fun _ h => h
  | cons b bs ih =>
    intro s t k h
    refine ih (k + 1) ?_
    split
    · exact hR.update h (.writeV _ b)
    · exact h

section
variable {R : State → State → Prop} (hR : Unread R) {s t : State} (h : R s t)
include hR h

theorem Unread.exec_ret : Related R (exec .ret s) (exec .ret t) := by
  have hsp : t.sp = s.sp := (hR.reads h).sp
  by_cases hempty : s.sp.val = 0
  · rw [exec_ret_of_empty hempty, exec_ret_of_empty (hsp ▸ hempty), (hR.reads h).pc]
    exact ⟨_, _, rfl, rfl, hR.update h (.raise _)⟩
  · rw [exec_ret_of_pos hempty, exec_ret_of_pos (hsp ▸ hempty)]
    have htop := hR.top h ⟨s.sp.val - 1, by omega⟩ (by simp only; omega)
    simp only [hsp, htop]
    exact ⟨_, _, rfl, rfl, hR.setPc (hR.update h .popped) _⟩

theorem Unread.exec_call (nnn : Addr12) : Related R (exec (.call nnn) s) (exec (.call nnn) t) := by
  have hsp : t.sp = s.sp := (hR.reads h).sp
  by_cases hroom : s.sp.val < 16
  · rw [exec_call_of_lt nnn hroom, exec_call_of_lt nnn (hsp ▸ hroom), (hR.reads h).pc]
    exact ⟨_, _, rfl, rfl, hR.setPc (hR.pushed h _ _ _) _⟩
  · rw [exec_call_of_full nnn (by omega), exec_call_of_full nnn (by omega), (hR.reads h).pc]
    exact ⟨_, _, rfl, rfl, hR.update h (.raise _)⟩

theorem Unread.exec_drw (x y : Reg) (n : Nibble) : Related R (exec (.drw x y n) s) (exec (.drw x y n) t) := by
  simp only [exec, execDrw, (hR.reads h).mem, (hR.reads h).i, (hR.reads h).fb, hR.readV h]
  cases s.mem.load s.i.toNat n.toNat with
  | ok rows =>
    exact ⟨_, _, rfl, rfl, hR.advance (hR.update (hR.update h (.present _)) (.writeV flagReg _))⟩
  | error f => exact hR.settle_error h f

theorem Unread.exec_ldB (x : Reg) : Related R (exec (.ldB x) s) (exec (.ldB x) t) := by
  simp only [exec, execLdB, (hR.reads h).mem, (hR.reads h).i, hR.readV h]
  cases s.mem.store s.i.toNat (bcdDigits (s.readV x)) with
  | ok m => exact ⟨_, _, rfl, rfl, hR.advance (hR.update h (.setMem m))⟩
  | error f => exact hR.settle_error h f

theorem Unread.exec_storeRegs (x : Reg) : Related R (exec (.storeRegs x) s) (exec (.storeRegs x) t) := by
  simp only [exec, execStoreRegs, (hR.reads h).mem, (hR.reads h).i, hR.readVList h]
  cases s.mem.store s.i.toNat (s.readVList 0 (runLength x)) with
  | ok m => exact ⟨_, _, rfl, rfl, hR.advance (hR.update (hR.update h (.setMem m)) (.setI _))⟩
  | error f => exact hR.settle_error h f

theorem Unread.exec_loadRegs (x : Reg) : Related R (exec (.loadRegs x) s) (exec (.loadRegs x) t) := by
  simp only [exec, execLoadRegs, (hR.reads h).mem, (hR.reads h).i]
  cases s.mem.load s.i.toNat (runLength x) with
  | ok bytes => exact ⟨_, _, rfl, rfl, hR.advance (hR.update (hR.writeVList bytes 0 h) (.setI _))⟩
  | error f => exact hR.settle_error h f

theorem Unread.exec_ldVxK (hkeys : t.keys = s.keys) (x : Reg) :
    Related R (exec (.ldVxK x) s) (exec (.ldVxK x) t) := by
  have hlowest : t.lowestKey = s.lowestKey := by simp only [State.lowestKey, hkeys]
  cases hk : s.lowestKey with
  | some k =>
    rw [exec_ldVxK_of_some x hk, exec_ldVxK_of_some x (hlowest.trans hk)]
    exact hR.finishResult h x _
  | none =>
    rw [exec_ldVxK_of_none x hk, exec_ldVxK_of_none x (hlowest.trans hk)]
    exact ⟨_, _, rfl, rfl, hR.update h (.setStatus .awaitingKey)⟩

/-- An instruction takes related states to related states, if they have one keypad or it reads none. -/
theorem Unread.exec (i : Instr)
    (hkeys : t.keys = s.keys ∨ ∀ x, i ≠ .skp x ∧ i ≠ .sknp x ∧ i ≠ .ldVxK x) :
    Related R (exec i s) (exec i t) := by
  have hv := hR.readV h
  have hi := (hR.reads h).i
  have hdt := (hR.reads h).dt
  have hdraws := (hR.reads h).draws
  cases i
  case ret => exact hR.exec_ret h
  case call nnn => exact hR.exec_call h nnn
  case drw x y n => exact hR.exec_drw h x y n
  case ldB x => exact hR.exec_ldB h x
  case storeRegs x => exact hR.exec_storeRegs h x
  case loadRegs x => exact hR.exec_loadRegs h x
  case skp x =>
    have hk : t.keys = s.keys := hkeys.resolve_right fun hne => (hne x).1 rfl
    simp only [Machine.exec, execSkp, State.keyDown, hk, hv]
    exact hR.skipIf h _
  case sknp x =>
    have hk : t.keys = s.keys := hkeys.resolve_right fun hne => (hne x).2.1 rfl
    simp only [Machine.exec, execSknp, State.keyDown, hk, hv]
    exact hR.skipIf h _
  case ldVxK x => exact hR.exec_ldVxK h (hkeys.resolve_right fun hne => (hne x).2.2 rfl) x
  case seImm | sneImm | seReg | sneReg =>
    simp only [Machine.exec, execSeImm, execSneImm, execSeReg, execSneReg, hv]
    exact hR.skipIf h _
  case ldImm | addImm | ldReg | orReg | andReg | xorReg | ldVxDt =>
    simp only [Machine.exec, execLdImm, execAddImm, execLdReg, execOrReg, execAndReg, execXorReg, execLdVxDt,
      hv, hdt]
    exact hR.finishResult h _ _
  case addReg | subReg | shr | subnReg | shl =>
    simp only [Machine.exec, execAddReg, execSubReg, execShr, execSubnReg, execShl, hv]
    exact hR.finishResultAndFlag h _ _ _
  case jp nnn => exact ⟨_, _, rfl, rfl, hR.setPc h _⟩
  case jpV0 nnn =>
    simp only [exec_jpV0, hv]
    exact ⟨_, _, rfl, rfl, hR.setPc h _⟩
  case sys nnn => exact ⟨_, _, rfl, rfl, hR.update h (.setStatus _)⟩
  case cls => exact ⟨_, _, rfl, rfl, hR.advance (hR.update h (.present _))⟩
  case ldI nnn => exact ⟨_, _, rfl, rfl, hR.advance (hR.update h (.setI _))⟩
  case ldF x =>
    simp only [exec_ldF, hv]
    exact ⟨_, _, rfl, rfl, hR.advance (hR.update h (.setI _))⟩
  case ldDtVx x =>
    simp only [exec_ldDtVx, hv]
    exact ⟨_, _, rfl, rfl, hR.advance (hR.update h (.setDt _))⟩
  case ldStVx x =>
    simp only [exec_ldStVx, hv]
    exact ⟨_, _, rfl, rfl, hR.advance (hR.update h (.setSt _))⟩
  case addI x =>
    simp only [exec_addI, hv, hi]
    exact ⟨_, _, rfl, rfl, hR.advance (hR.update (hR.update h (.setI _)) (.writeV flagReg _))⟩
  case rnd x nn =>
    simp only [exec_rnd, hdraws]
    exact ⟨_, _, rfl, rfl, hR.advance (hR.update (hR.update h .draw8) (.writeV x _))⟩

end

/-! ## Cycles of related states -/

/-- The report of a halted engine is its raise over again. -/
theorem haltedCycle_eq_raise {s : State} {f : EngineFault} (h : s.run = .halted f) :
    s.haltedCycle f = s.raise f := by
  rw [State.haltedCycle, State.raise, ← h]

/-- A cycle answers one state. -/
theorem eq_of_step_eq {s t u : State} (ht : step s = .next t) (hu : step s = .next u) : u = t := by
  rw [ht] at hu
  exact (Host.Outcome.next.inj hu).symm

/-- The ends of two cycles from related states: one tick or one raise, over related states. -/
def EndsRelated (R : State → State → Prop) (s t : State) : Prop :=
  ∃ u w, R u w ∧ ((s = u.tick ∧ t = w.tick) ∨ ∃ f, s = u.raise f ∧ t = w.raise f)

section
variable {R : State → State → Prop} (hR : Unread R) {s t s' t' : State}
  (h : R s.beginExecute t.beginExecute)
include hR h

theorem Unread.canFetch (hs : CanFetch s) : CanFetch t ∧ wordAtPc t = wordAtPc s := by
  have hpc : t.pc = s.pc := (hR.reads h).pc
  have hmem : t.mem = s.mem := (hR.reads h).mem
  have hrun : t.run = s.run := (hR.reads h).run
  exact ⟨⟨hrun.trans hs.1, hpc ▸ hs.2⟩, by rw [wordAtPc, wordAtPc, hpc, hmem]⟩

theorem Unread.step_of_decoded {i : Instr} (hkeys : t.keys = s.keys) (hs : CanFetch s)
    (hd : decode (wordAtPc s) = .ok i) (hs' : step s = .next s') (ht' : step t = .next t') :
    EndsRelated R s' t' := by
  obtain ⟨ht, hword⟩ := hR.canFetch h hs
  obtain ⟨u, w, hu, hw, hrel⟩ := hR.exec h i (.inl hkeys)
  have hrun : w.run = u.run := (hR.reads hrel).run
  obtain rfl := eq_of_step_eq (step_of_exec hs hd hu) hs'
  obtain rfl := eq_of_step_eq (step_of_exec ht (hword ▸ hd) hw) ht'
  obtain ⟨_, hu₂, hcu⟩ := exec_answers_next i s.beginExecute
  obtain ⟨_, hw₂, hcw⟩ := exec_answers_next i t.beginExecute
  obtain rfl := eq_of_exec_eq hu hu₂
  obtain rfl := eq_of_exec_eq hw hw₂
  rcases hcu with ⟨hcont, -⟩ | ⟨f, rfl⟩
  · have hurun : RunState.running = _ := (hcont.trans hs.1).symm
    rw [hrun, ← hurun, if_pos rfl, if_pos rfl]
    exact ⟨_, _, hrel, .inl ⟨rfl, rfl⟩⟩
  · rcases hcw with ⟨hcont, -⟩ | ⟨g, rfl⟩
    · rw [hrun, State.beginExecute_run, ht.1] at hcont
      cases hcont
    · cases hrun
      exact ⟨_, _, h, .inr ⟨f, rfl, rfl⟩⟩

/-- Related states take the same branch of the cycle. -/
theorem Unread.step (hkeys : t.keys = s.keys) (hs' : step s = .next s') (ht' : step t = .next t') :
    EndsRelated R s' t' := by
  have hrun : t.run = s.run := (hR.reads h).run
  have hpc : t.pc = s.pc := (hR.reads h).pc
  rcases step_cases s s' hs' with ⟨f, hhalt, rfl⟩ | ⟨hgo, hbeyond, rfl⟩ | ⟨hs, ⟨e, hd⟩, rfl⟩ |
    ⟨hs, i, -, hd, -⟩
  · obtain rfl := eq_of_step_eq (step_of_halted (hrun.trans hhalt)) ht'
    exact ⟨_, _, h, .inr ⟨f, haltedCycle_eq_raise hhalt, haltedCycle_eq_raise (hrun.trans hhalt)⟩⟩
  · obtain rfl := eq_of_step_eq (step_of_pc_gt (hrun.trans hgo) (hpc ▸ hbeyond)) ht'
    exact ⟨_, _, h, .inr ⟨_, rfl, by rw [hpc]; rfl⟩⟩
  · obtain ⟨ht, hword⟩ := hR.canFetch h hs
    obtain rfl := eq_of_step_eq (step_of_undefined ht (hword ▸ hd)) ht'
    exact ⟨_, _, hR.update h (.setStatus (.decodeError (wordAtPc s))), .inl ⟨rfl, by rw [hword]; rfl⟩⟩
  · exact hR.step_of_decoded h hkeys hs hd hs' ht'

end

/-! ## The four relations -/

/-- The states differ in ST alone. -/
def SameButSt (s t : State) : Prop := ∃ b, t = s.setSt b

theorem unread_sameButSt : Unread SameButSt where
  reads := by
    rintro s _ ⟨b, rfl⟩
    exact ⟨rfl, rfl, rfl, rfl, rfl, rfl, rfl, rfl, rfl⟩
  update := by
    rintro s _ ⟨b, rfl⟩ op
    cases op <;> exact ⟨_, rfl⟩
  pushed := by
    rintro s _ ⟨b, rfl⟩ a hs ht
    exact ⟨b, rfl⟩
  top := by
    rintro s _ ⟨b, rfl⟩ k hk
    rfl

/-- Settles O44: an execute stage leaves the states different in ST alone, and the tick carries ST into the
beep. -/
theorem soundTimerIsNeverRead : Obligations.SoundTimerIsNeverRead := by
  intro s t u b hs hu
  have hbegin : SameButSt s.beginExecute (s.setSt b).beginExecute := ⟨b, rfl⟩
  obtain ⟨v, _, ⟨c, rfl⟩, ⟨rfl, rfl⟩ | ⟨f, rfl, rfl⟩⟩ := unread_sameButSt.step hbegin rfl hs hu
  · intro g hg
    cases g <;> simp [SameField] at hg ⊢
  · intro g hg
    cases g <;> simp [SameField] at hg ⊢

/-- The states differ in `REDRAW` and the beep alone. -/
def SameButRedrawBeep (s t : State) : Prop := ∃ redraw beep, t = { s with redraw := redraw, beep := beep }

theorem unread_sameButRedrawBeep : Unread SameButRedrawBeep where
  reads := by
    rintro s _ ⟨redraw, beep, rfl⟩
    exact ⟨rfl, rfl, rfl, rfl, rfl, rfl, rfl, rfl, rfl⟩
  update := by
    rintro s _ ⟨redraw, beep, rfl⟩ op
    cases op <;> exact ⟨_, _, rfl⟩
  pushed := by
    rintro s _ ⟨redraw, beep, rfl⟩ a hs ht
    exact ⟨redraw, beep, rfl⟩
  top := by
    rintro s _ ⟨redraw, beep, rfl⟩ k hk
    rfl

/-- Settles O45: the status is written before execute, and the tick or the raise writes the beep anew, so
that only `REDRAW` is left different. -/
theorem outputsAreNeverRead : Obligations.OutputsAreNeverRead := by
  intro s t u redraw status beep hs hu
  have hbegin : SameButRedrawBeep s.beginExecute
      { s with redraw := redraw, status := status, beep := beep }.beginExecute := ⟨redraw, beep, rfl⟩
  obtain ⟨v, _, ⟨redraw', beep', rfl⟩, ⟨rfl, rfl⟩ | ⟨f, rfl, rfl⟩⟩ :=
    unread_sameButRedrawBeep.step hbegin rfl hs hu
  · intro g hg
    cases g <;> simp [SameField, State.readV, State.keyDown] at hg ⊢
  · intro g hg
    cases g <;> simp [SameField, State.readV, State.keyDown] at hg ⊢

/-- The states differ in dead stack entries alone. -/
def SameButDeadEntries (s t : State) : Prop :=
  ∃ stack : Vector Word 16, (∀ k : Fin 16, k.val < s.sp.val → stack[k.val] = s.stack[k.val]) ∧
    t = { s with stack := stack }

theorem unread_sameButDeadEntries : Unread SameButDeadEntries where
  reads := by
    rintro s _ ⟨stack, hlive, rfl⟩
    exact ⟨rfl, rfl, rfl, rfl, rfl, rfl, rfl, rfl, rfl⟩
  update := by
    rintro s _ ⟨stack, hlive, rfl⟩ op
    cases op
    case popped => exact ⟨stack, fun k hk => hlive k (Nat.lt_of_lt_of_le hk (Nat.sub_le _ 1)), rfl⟩
    all_goals exact ⟨stack, hlive, rfl⟩
  pushed := by
    rintro s _ ⟨stack, hlive, rfl⟩ a hs ht
    refine ⟨stack.set s.sp.val a hs, fun k hk => ?_, rfl⟩
    have hlt : k.val < s.sp.val + 1 := hk
    by_cases hnew : k.val = s.sp.val
    · simp [State.pushed, hnew]
    · have hold := hlive k (by omega)
      simpa [State.pushed, Vector.getElem_set, Ne.symm hnew] using hold
  top := by
    rintro s _ ⟨stack, hlive, rfl⟩ k hk
    exact hlive k hk

/-- Settles O46: a push writes the entry that comes alive, and a pop reads a live one, so that only dead
entries are left different. -/
theorem deadStackEntriesAreNeverRead : Obligations.DeadStackEntriesAreNeverRead := by
  intro s t u stack hlive hs hu
  have hbegin : SameButDeadEntries s.beginExecute { s with stack := stack }.beginExecute :=
    ⟨stack, hlive, rfl⟩
  obtain ⟨v, _, ⟨stack', hlive', rfl⟩, ⟨rfl, rfl⟩ | ⟨f, rfl, rfl⟩⟩ :=
    unread_sameButDeadEntries.step hbegin rfl hs hu
  · refine ⟨fun g hg => ?_, hlive'⟩
    cases g <;> simp [SameField, State.readV, State.keyDown] at hg ⊢
  · refine ⟨fun g hg => ?_, hlive'⟩
    cases g <;> simp [SameField, State.readV, State.keyDown] at hg ⊢

theorem unread_writeKeys (keys : Vector Bool 16) : Unread fun s t => t = s.writeKeys keys where
  reads := by
    rintro s _ rfl
    exact ⟨rfl, rfl, rfl, rfl, rfl, rfl, rfl, rfl, rfl⟩
  update := by
    rintro s _ rfl op
    cases op <;> rfl
  pushed := by
    rintro s _ rfl a hs ht
    rfl
  top := by
    rintro s _ rfl k hk
    rfl

theorem keyDown_of_exec {i : Instr} {s t : State} (h : exec i s = .next t) (k : Nibble) :
    t.keyDown k = s.keyDown k := by
  obtain ⟨u, hu, hcase⟩ := exec_answers_next i s
  obtain rfl := eq_of_exec_eq hu h
  rcases hcase with ⟨-, -, hkeys⟩ | ⟨f, rfl⟩
  · simp only [State.keyDown, hkeys]
  · rfl

/-- Settles O47: no instruction writes the keypad, and all but the three take a state and the same state
with another keypad to such a pair again. -/
theorem onlyKeyInstructionsReadKeypad : Obligations.OnlyKeyInstructionsReadKeypad := by
  refine ⟨fun i s => ?_, fun i s keys hi => ?_⟩
  · obtain ⟨t, ht, -⟩ := exec_answers_next i s
    exact ⟨t, ht, keyDown_of_exec ht⟩
  · obtain ⟨t, _, ht, hu, rfl⟩ := (unread_writeKeys keys).exec (s := s) rfl i (.inr hi)
    exact ⟨t, ht, hu⟩

end Sys2Proof.Machine

/-! The obligations about the reset by the host (R24, R30, R210, R211). -/

namespace Sys2Proof.Machine

/-- Memory that lists nothing reads as the font where the font lies. -/
theorem read_nil_of_lt {a : Nat} (ha : a < 80) : Memory.read [] a = Config.fontset[a] :=
  dif_pos ⟨Nat.zero_le a, ha⟩

/-- Memory that lists nothing reads as zero past the font. -/
theorem read_nil_of_ge {a : Nat} (ha : 80 ≤ a) : Memory.read [] a = 0#8 :=
  dif_neg fun h => Nat.not_lt.mpr ha h.2

/-- Settles O57: every field is that of `State.reset` but the keypad and the count of draws, and memory
lists nothing. -/
theorem reinitializeLeavesResetValues : Obligations.ReinitializeLeavesResetValues := by
  intro s
  have hv (r : Reg) : s.reinitialize.readV r = 0#8 := Vector.getElem_replicate _
  have hstack (k : Fin 16) : s.reinitialize.stack[k.val] = 0#16 := Vector.getElem_replicate _
  exact ⟨hv, rfl, rfl, rfl, rfl, hstack, rfl, fun k => read_nil_of_lt k.isLt, fun a => read_nil_of_ge,
    pixel_clear, rfl, rfl, rfl, rfl, rfl⟩

/-- Settles O58: the keypad and the count of draws are all that a reset keeps of a state. -/
theorem reinitializeIsIdempotent : Obligations.ReinitializeIsIdempotent := by
  refine ⟨fun s => rfl, fun s t hkeys => ?_⟩
  simp only [State.reinitialize, hkeys]

end Sys2Proof.Machine
